-- ==== Sys2Proof/Word.lean ====
section
/-! DEFINITION. Word.lean: the widths of the bus and of the raw registers (rules R7, R31). -/
namespace Sys2Proof

/-- One message byte; the data of a 1-byte access. -/
abbrev Byte := BitVec 8

/-- The data of a 2-byte access (RI: "word"; suffix H). -/
abbrev Half := BitVec 16

/-- The data of a 4-byte access (RI: "doubleword"; suffix W) and the raw register width `RAW_W` (R7). -/
abbrev Word := BitVec 32

/-- The sizes the interface can present (R7 `SIZES`, R31): 1, 2 or 4 bytes, written B, H, W in R57. -/
inductive Size where
  | byte | half | word
  deriving DecidableEq, Repr

/-- The direction `rw` of a transaction (R5). -/
inductive Direction where
  | read | write
  deriving DecidableEq, Repr

/-- A value on the bus together with its size: an unsigned value of 8, 16 or 32 bits (R5 `rdata`, `wdata`). -/
inductive BusData where
  | byte (v : Byte)
  | half (v : Half)
  | word (v : Word)
  deriving DecidableEq, Repr

end Sys2Proof
end

