-- ==== Sys2Proof/Config.lean ====
section
/-! DEFINITION. Config.lean: the parameters of rule R7 and the literals of the register map. -/
namespace Sys2Proof.Config

/-- `BASE`, the block's base address in the platform's map: OPEN (R7, R43, D23). No rule depends on it. -/
opaque base : Nat

/-- `WINDOW`, how many byte offsets the platform routes to the block: OPEN (R7, R43, D23). No rule depends on it. -/
opaque window : Nat

/-- Offset of DATA (R7, R30). -/
abbrev dataOffset : Nat := 0x0

/-- Offset of POLYNOMIAL (R7, R30). -/
abbrev polyOffset : Nat := 0x4

/-- Offset of CONTROL (R7, R30). -/
abbrev ctrlOffset : Nat := 0x8

/-- The supported checksum widths `WIDTHS` (R7, R17). -/
abbrev widths : List Nat := [16, 32]

/-- Reset value of POLY (R28). -/
abbrev resetPoly : Word := 0x00001021

/-- Reset value of the pending seed (R28). -/
abbrev resetSeed : Word := 0xFFFFFFFF

end Sys2Proof.Config
end

