-- ==== Sys2Proof/Syntax.lean ====
section
/-! DEFINITION. Syntax.lean: the operations of the block, one constructor per row of the operation map (R47). -/
namespace Sys2Proof

/-- One bus transaction as an operation with its operands (R47). The system reset is no transaction (R47) and
has no constructor: it is an input event of its own (`Machine.BusInput.reset`). -/
inductive Instr where
  /-- `RD_DATA_B`, R91 -/
  | rdDataB
  /-- `RD_DATA_H`, R90 -/
  | rdDataH
  /-- `RD_DATA_W`, R89 -/
  | rdDataW
  /-- `WR_DATA_B`, R86 -/
  | wrDataB (wdata : Byte)
  /-- `WR_DATA_H`, R87 -/
  | wrDataH (wdata : Half)
  /-- `WR_DATA_W`, R88 -/
  | wrDataW (wdata : Word)
  /-- `RD_POLY`, R99 -/
  | rdPoly
  /-- `WR_POLY`, R98 -/
  | wrPoly (wdata : Word)
  /-- `RD_CTRL`, R101 -/
  | rdCtrl
  /-- `WR_CTRL`, R100 -/
  | wrCtrl (wdata : Word)
  /-- `RD_POLY_B`, R107 -/
  | rdPolyB
  /-- `RD_POLY_H`, R107 -/
  | rdPolyH
  /-- `WR_POLY_B`, R107 -/
  | wrPolyB (wdata : Byte)
  /-- `WR_POLY_H`, R107 -/
  | wrPolyH (wdata : Half)
  /-- `RD_CTRL_B`, R107 -/
  | rdCtrlB
  /-- `RD_CTRL_H`, R107 -/
  | rdCtrlH
  /-- `WR_CTRL_B`, R107 -/
  | wrCtrlB (wdata : Byte)
  /-- `WR_CTRL_H`, R107 -/
  | wrCtrlH (wdata : Half)
  /-- `RD_UNMAPPED`, R105: any offset other than 0x0, 0x4, 0x8, any size -/
  | rdUnmapped (offset : Nat) (size : Size)
  /-- `WR_UNMAPPED`, R106: any offset other than 0x0, 0x4, 0x8; the size is that of the data -/
  | wrUnmapped (offset : Nat) (wdata : BusData)
  deriving DecidableEq, Repr

/-- The mnemonic of the operation map (R47), letter for letter. -/
def Instr.mnemonic : Instr → String
  | .rdDataB => "RD_DATA_B"
  | .rdDataH => "RD_DATA_H"
  | .rdDataW => "RD_DATA_W"
  | .wrDataB _ => "WR_DATA_B"
  | .wrDataH _ => "WR_DATA_H"
  | .wrDataW _ => "WR_DATA_W"
  | .rdPoly => "RD_POLY"
  | .wrPoly _ => "WR_POLY"
  | .rdCtrl => "RD_CTRL"
  | .wrCtrl _ => "WR_CTRL"
  | .rdPolyB => "RD_POLY_B"
  | .rdPolyH => "RD_POLY_H"
  | .wrPolyB _ => "WR_POLY_B"
  | .wrPolyH _ => "WR_POLY_H"
  | .rdCtrlB => "RD_CTRL_B"
  | .rdCtrlH => "RD_CTRL_H"
  | .wrCtrlB _ => "WR_CTRL_B"
  | .wrCtrlH _ => "WR_CTRL_H"
  | .rdUnmapped _ _ => "RD_UNMAPPED"
  | .wrUnmapped _ _ => "WR_UNMAPPED"

end Sys2Proof
end

