-- ==== Sys2Proof/WellFormed.lean ====
section
/-! DEFINITION. WellFormed.lean: which operations exist on the bus, and which of them have a descriptor. -/
namespace Sys2Proof

/-- The mapped offsets are exactly 0x0, 0x4 and 0x8 (R32). -/
def isMapped (offset : Nat) : Bool :=
  offset == Config.dataOffset || offset == Config.polyOffset || offset == Config.ctrlOffset

/-- An operation is well formed when its offset is one its row of R47 admits: the two `*_UNMAPPED` rows match only
what no earlier row matched. Every other operand value is legal, since each operand has exactly its own width. -/
def Instr.wellFormed : Instr → Bool
  | .rdUnmapped offset _ => !isMapped offset
  | .wrUnmapped offset _ => !isMapped offset
  | .rdDataB | .rdDataH | .rdDataW | .wrDataB _ | .wrDataH _ | .wrDataW _
  | .rdPoly | .wrPoly _ | .rdCtrl | .wrCtrl _
  | .rdPolyB | .rdPolyH | .wrPolyB _ | .wrPolyH _
  | .rdCtrlB | .rdCtrlH | .wrCtrlB _ | .wrCtrlH _ => true

/-- A descriptor has five offset bits: an offset of 0x20 or more has no descriptor of its own (R45). -/
def Instr.hasDescriptor : Instr → Bool
  | .rdUnmapped offset _ => decide (offset < 0x20)
  | .wrUnmapped offset _ => decide (offset < 0x20)
  | .rdDataB | .rdDataH | .rdDataW | .wrDataB _ | .wrDataH _ | .wrDataW _
  | .rdPoly | .wrPoly _ | .rdCtrl | .wrCtrl _
  | .rdPolyB | .rdPolyH | .wrPolyB _ | .wrPolyH _
  | .rdCtrlB | .rdCtrlH | .wrCtrlB _ | .wrCtrlH _ => true

end Sys2Proof
end

