-- ==== Sys2Proof/Decode.lean ====
section
/-! DEFINITION. Decode.lean: from what the bus presents (R5) to an operation (R47), and back. -/
namespace Sys2Proof

/-- The inputs of one transaction (R5). The size is kept as its raw code (R46), so that the reserved code 11 can be
presented and refused (R56). `offset` is any natural number. -/
structure Transaction where
  rw     : Direction
  sz     : BitVec 2
  offset : Nat
  wdata  : Word
  deriving DecidableEq, Repr

/-- Why an input is no transaction. -/
inductive DecodeError where
  /-- Size code 11 denotes no transaction (R56). -/
  | reservedSizeCode
  deriving DecidableEq, Repr

/-- Size codes (R46): 00, 01, 10 are 1, 2, 4 bytes; 11 is reserved. -/
def Size.ofCode (sz : BitVec 2) : Option Size :=
  if sz = 0 then some .byte else if sz = 1 then some .half else if sz = 2 then some .word else none

/-- The code of a size (R46). -/
def Size.code : Size → BitVec 2
  | .byte => 0
  | .half => 1
  | .word => 2

/-- The number of bytes of a size (R31). -/
def Size.bytes : Size → Nat
  | .byte => 1
  | .half => 2
  | .word => 4

/-- The size of a bus value. -/
def BusData.size : BusData → Size
  | .byte _ => .byte
  | .half _ => .half
  | .word _ => .word

/-- `zext_32` of a bus value (R8). -/
def BusData.zext : BusData → Word
  | .byte v => v.setWidth 32
  | .half v => v.setWidth 32
  | .word v => v

/-- The low 8, 16 or 32 bits of a doubleword, `v[8n-1:0]` (R92, R95). Log 10: what a transaction carries above its
own size is ignored. -/
def BusData.ofWord (size : Size) (v : Word) : BusData :=
  match size with
  | .byte => .byte (v.setWidth 8)
  | .half => .half (v.setWidth 16)
  | .word => .word v

/-- The value 0 of a given size, what an unmapped read returns (R105). -/
def BusData.zero (size : Size) : BusData := .ofWord size 0

/-- Accesses to DATA: every size in both directions (R35). -/
def decodeData (rw : Direction) (size : Size) (wdata : Word) : Instr :=
  match rw, size with
  | .read, .byte => .rdDataB
  | .read, .half => .rdDataH
  | .read, .word => .rdDataW
  | .write, .byte => .wrDataB (wdata.setWidth 8)
  | .write, .half => .wrDataH (wdata.setWidth 16)
  | .write, .word => .wrDataW wdata

/-- Accesses to POLYNOMIAL (R35). -/
def decodePoly (rw : Direction) (size : Size) (wdata : Word) : Instr :=
  match rw, size with
  | .read, .byte => .rdPolyB
  | .read, .half => .rdPolyH
  | .read, .word => .rdPoly
  | .write, .byte => .wrPolyB (wdata.setWidth 8)
  | .write, .half => .wrPolyH (wdata.setWidth 16)
  | .write, .word => .wrPoly wdata

/-- Accesses to CONTROL (R35). -/
def decodeCtrl (rw : Direction) (size : Size) (wdata : Word) : Instr :=
  match rw, size with
  | .read, .byte => .rdCtrlB
  | .read, .half => .rdCtrlH
  | .read, .word => .rdCtrl
  | .write, .byte => .wrCtrlB (wdata.setWidth 8)
  | .write, .half => .wrCtrlH (wdata.setWidth 16)
  | .write, .word => .wrCtrl wdata

/-- Accesses to any other offset (R32, R35). -/
def decodeUnmapped (rw : Direction) (offset : Nat) (size : Size) (wdata : Word) : Instr :=
  match rw with
  | .read => .rdUnmapped offset size
  | .write => .wrUnmapped offset (BusData.ofWord size wdata)

/-- The decoder: total on every input, in the order of the checks of R115 (size code, then offset, then size). -/
def decode (t : Transaction) : Except DecodeError Instr :=
  match Size.ofCode t.sz with
  | none => .error .reservedSizeCode
  | some size =>
    if t.offset = Config.dataOffset then .ok (decodeData t.rw size t.wdata)
    else if t.offset = Config.polyOffset then .ok (decodePoly t.rw size t.wdata)
    else if t.offset = Config.ctrlOffset then .ok (decodeCtrl t.rw size t.wdata)
    else .ok (decodeUnmapped t.rw t.offset size t.wdata)

/-- The transaction of a descriptor `D` (R45: rw in bit 7, sz in bits 6:5, off in bits 4:0) and its write data. -/
def Transaction.ofDescriptor (d : Byte) (wdata : Word) : Transaction :=
  { rw := if d.getLsbD 7 then .write else .read
    sz := d.extractLsb' 5 2
    offset := (d.extractLsb' 0 5).toNat
    wdata := wdata }

/-- The transaction of a table word: the descriptor in bits 7:0 as `spec/opcode_table.json` numbers them; the write
data, which the table gives no bits, in bits 39:8 (log 9). -/
def Transaction.ofTableWord (w : Nat) : Transaction :=
  .ofDescriptor (BitVec.ofNat 8 w) (BitVec.ofNat 32 (w / 256))

/-- What the decoder reads from a table word of `nbits` bits, every bit above them 0. -/
def decodeTableWord (nbits w : Nat) : Option Instr :=
  match decode (.ofTableWord (w % 2 ^ nbits)) with
  | .ok i => some i
  | .error _ => none

/-! ### The encoder, from the same table (R45 to R47) -/

/-- A read transaction; it carries no write data. -/
def Transaction.readOf (offset : Nat) (size : Size) : Transaction :=
  { rw := .read, sz := size.code, offset := offset, wdata := 0 }

/-- A write transaction of the size of its data. -/
def Transaction.writeOf (offset : Nat) (d : BusData) : Transaction :=
  { rw := .write, sz := d.size.code, offset := offset, wdata := d.zext }

/-- What the host presents on the bus for an operation (R35, R47). -/
def encode : Instr → Transaction
  | .rdDataB => .readOf Config.dataOffset .byte
  | .rdDataH => .readOf Config.dataOffset .half
  | .rdDataW => .readOf Config.dataOffset .word
  | .wrDataB v => .writeOf Config.dataOffset (.byte v)
  | .wrDataH v => .writeOf Config.dataOffset (.half v)
  | .wrDataW v => .writeOf Config.dataOffset (.word v)
  | .rdPoly => .readOf Config.polyOffset .word
  | .wrPoly v => .writeOf Config.polyOffset (.word v)
  | .rdCtrl => .readOf Config.ctrlOffset .word
  | .wrCtrl v => .writeOf Config.ctrlOffset (.word v)
  | .rdPolyB => .readOf Config.polyOffset .byte
  | .rdPolyH => .readOf Config.polyOffset .half
  | .wrPolyB v => .writeOf Config.polyOffset (.byte v)
  | .wrPolyH v => .writeOf Config.polyOffset (.half v)
  | .rdCtrlB => .readOf Config.ctrlOffset .byte
  | .rdCtrlH => .readOf Config.ctrlOffset .half
  | .wrCtrlB v => .writeOf Config.ctrlOffset (.byte v)
  | .wrCtrlH v => .writeOf Config.ctrlOffset (.half v)
  | .rdUnmapped offset size => .readOf offset size
  | .wrUnmapped offset d => .writeOf offset d

/-- The descriptor of a transaction whose offset is below 0x20 (R45). -/
def Transaction.descriptor (t : Transaction) : Byte :=
  (match t.rw with | .read => 0#1 | .write => 1#1) ++ t.sz ++ BitVec.ofNat 5 t.offset

/-- The table word of a transaction, inverse to `ofTableWord`; none where R45 gives no descriptor. -/
def Transaction.toTableWord (t : Transaction) : Option Nat :=
  if t.offset < 0x20 then some (t.wdata.toNat * 256 + t.descriptor.toNat) else none

/-- The table word of an operation. -/
def encodeTableWord (i : Instr) : Option Nat := (encode i).toTableWord

/-- The transaction with only the write data its size and direction carry: what the decoder can tell apart. -/
def Transaction.canonical (t : Transaction) : Transaction :=
  match t.rw, Size.ofCode t.sz with
  | .write, some size => { t with wdata := (BusData.ofWord size t.wdata).zext }
  | _, _ => { t with wdata := 0 }

/-! ### The operation map as a table (R47) -/

/-- One row of the operation map: its mnemonic, `D match` and `D mask`. -/
structure OpRow where
  mnemonic : String
  dmatch   : Byte
  dmask    : Byte
  deriving DecidableEq, Repr

/-- The rows of R47 in priority order. -/
def operationMap : List OpRow :=
  [⟨"RD_DATA_B", 0x00, 0xFF⟩, ⟨"RD_DATA_H", 0x20, 0xFF⟩, ⟨"RD_DATA_W", 0x40, 0xFF⟩,
   ⟨"WR_DATA_B", 0x80, 0xFF⟩, ⟨"WR_DATA_H", 0xA0, 0xFF⟩, ⟨"WR_DATA_W", 0xC0, 0xFF⟩,
   ⟨"RD_POLY", 0x44, 0xFF⟩, ⟨"WR_POLY", 0xC4, 0xFF⟩, ⟨"RD_CTRL", 0x48, 0xFF⟩, ⟨"WR_CTRL", 0xC8, 0xFF⟩] ++
  [⟨"RD_POLY_B", 0x04, 0xFF⟩, ⟨"RD_POLY_H", 0x24, 0xFF⟩, ⟨"WR_POLY_B", 0x84, 0xFF⟩, ⟨"WR_POLY_H", 0xA4, 0xFF⟩,
   ⟨"RD_CTRL_B", 0x08, 0xFF⟩, ⟨"RD_CTRL_H", 0x28, 0xFF⟩, ⟨"WR_CTRL_B", 0x88, 0xFF⟩, ⟨"WR_CTRL_H", 0xA8, 0xFF⟩] ++
  [⟨"RD_UNMAPPED", 0x00, 0x80⟩, ⟨"WR_UNMAPPED", 0x80, 0x80⟩]

/-- The mnemonic of the first row of the operation map that matches a descriptor (R47). -/
def operationMapLookup (d : Byte) : Option String :=
  (operationMap.find? fun r => d &&& r.dmask == r.dmatch).map OpRow.mnemonic

end Sys2Proof
end

