-- ==== Sys2Proof/Machine/State.lean ====
section
/-! DEFINITION. State.lean: the whole state of the CRC block (R10) and of its transaction-level interface (R5). -/
namespace Sys2Proof.Machine

/-- The five stored fields of CONTROL (R12). -/
structure Ctrl where
  /-- width select: false = 32-bit, true = 16-bit (R51) -/
  tcrc : Bool
  /-- `writeAsSeed` (R14) -/
  was  : Bool
  /-- output-XOR-invert enable (R52) -/
  fxor : Bool
  /-- output reflection mode, raw (R49) -/
  totr : BitVec 2
  /-- input reflection mode, raw (R49) -/
  tot  : BitVec 2
  deriving DecidableEq, Repr

/-- The configuration value type (R17), compared by structural equality (R19). The width is a number, so that
`Construct` has the case of R73 (log 12); masks to `width` bits are the invariant of R18, not part of the type. -/
structure CrcConfig where
  polynomial    : Word
  width         : Nat
  reflectInput  : Bool
  reflectOutput : Bool
  seed          : Word
  xorOutput     : Word
  deriving DecidableEq, Repr

/-- A `CRCEngine` (R20): the configuration it was built from and the accumulator. -/
structure Engine where
  config : CrcConfig
  acc    : Word
  deriving DecidableEq, Repr

/-- The signals that are faults (R9, R109). -/
inductive Fault where
  /-- Raised by `Construct` for a width outside {16, 32} (R73, R110). Fatal: the machine stops with it (log 2).
  No transaction reaches it (R85). Safe: the model stops where the spec gives no continuation. -/
  | unsupportedWidth (width : Nat)
  /-- Raised by `WR_DATA_H` and `WR_DATA_W` in accumulate mode (R111). It does not stop the machine: the transaction
  ends with it, no state of the block changes, the fault is recorded for the run and the block goes on (R116, R117,
  log 1). Safe for claims that take "no fault recorded" as a premise. -/
  | unsupportedAccessWidth (offset : Nat) (size : Size)
  deriving DecidableEq, Repr

/-- Why a step has no meaning (R9 `refused`). Every refusal is safe: the model stops. -/
inductive Refusal where
  /-- Answered by `exec` for an operation that has no meaning yet; no arm answers it. Safe. -/
  | notModelled (mnemonic : String)
  /-- Answered by the eight narrow accesses to POLYNOMIAL and CONTROL, to which the spec gives no meaning
  (R107, I7 "narrow configuration access"). Safe. -/
  | narrowConfigurationAccess
  /-- Answered by `step` for a size code that denotes no transaction (R56, I8). Safe. -/
  | invalidSizeCode
  deriving DecidableEq, Repr

/-- The event handed to the logging sink (R108): `UnmappedOffset` with its direction, offset, size and, for a
write, the value (whose size is the size of the access). -/
inductive LogEvent where
  | unmappedRead (offset : Nat) (size : Size)
  | unmappedWrite (offset : Nat) (wdata : BusData)
  deriving DecidableEq, Repr

/-- The outcome of a transaction after which the machine goes on (R9); a refused one stops the machine. -/
inductive TxOutcome where
  | ok
  | fault (f : Fault)
  deriving DecidableEq, Repr

/-- What one transaction delivers (R5): outcome, read data, zero or one log event. -/
structure Response where
  outcome : TxOutcome
  rdata   : Option BusData
  event   : Option LogEvent
  deriving DecidableEq, Repr

/-- The inputs of the block (R5): a bus transaction or the system reset event (R122). -/
inductive BusInput where
  | transaction (t : Transaction)
  | reset
  deriving DecidableEq, Repr

/-- The state: the tuple of R10, the ghost bit of R27, and the model's own four fields for the interface. -/
structure State where
  /-- raw polynomial (R11) -/
  poly        : Word
  /-- the stored fields of CONTROL (R12) -/
  ctrl        : Ctrl
  /-- pending seed, raw (R13) -/
  seed        : Word
  /-- hidden dirty bit (R15) -/
  configDirty : Bool
  /-- the owned engine, if any (R16) -/
  engine      : Option Engine
  /-- ghost bit: a non-empty update since the engine was built or last reset (R27, log 8) -/
  fed         : Bool
  /-- inputs not received yet, first received first (R38, log 3) -/
  inbox       : List BusInput
  /-- what the last transaction since reset delivered (R5, log 5) -/
  response    : Option Response
  /-- events handed to the logging sink, oldest first (R108, log 6) -/
  log         : List LogEvent
  /-- faults recorded for the run, oldest first (R117, log 7) -/
  faults      : List Fault
  deriving DecidableEq, Repr

/-- The machine right after reset (R28): no reset value of the block is unspecified; `engine` and `configDirty` are
the spec's decision D18. -/
def State.reset : State :=
  { poly := Config.resetPoly
    ctrl := { tcrc := false, was := false, fxor := false, totr := 0, tot := 0 }
    seed := Config.resetSeed
    configDirty := true
    engine := none
    fed := false
    inbox := []
    response := none
    log := []
    faults := [] }

end Sys2Proof.Machine
end

