-- ==== Sys2Proof/Machine/Operands.lean ====
section
/-! DEFINITION. Operands.lean: how the bits of CONTROL and of a DATA access become operands (R48 to R54). -/
namespace Sys2Proof.Machine

/-- The reflection modes (R49). -/
inductive ReflectionMode where
  | disabled | bitLevel | bitAndByte | byteLevel
  deriving DecidableEq, Repr

/-- The 2-bit encoding (R49): 0, 1, 2, 3 in this order. -/
def ReflectionMode.ofBits (m : BitVec 2) : ReflectionMode :=
  if m = 0 then .disabled else if m = 1 then .bitLevel else if m = 2 then .bitAndByte else .byteLevel

/-- From mode to the engine's boolean (R50): only bit-and-byte and byte level reflect; bit level is inert. -/
def ReflectionMode.reflects : ReflectionMode → Bool
  | .disabled => false
  | .bitLevel => false
  | .bitAndByte => true
  | .byteLevel => true

/-- `mask(w)` (R8), as a raw 32-bit word. -/
def mask (w : Nat) : Word := BitVec.ofNat 32 (2 ^ w - 1)

/-- Width select (R51). -/
def selectedWidth (c : Ctrl) : Nat := if c.tcrc then 16 else 32

/-- The XOR mask of the invert enable (R52). -/
def selectedXor (c : Ctrl) : Word := if c.fxor then mask (selectedWidth c) else 0

/-- The fields of a value written to CONTROL (R48); bits 27 and 23:0 are ignored (R55). -/
def Ctrl.ofWord (v : Word) : Ctrl :=
  { tot := v.extractLsb' 30 2
    totr := v.extractLsb' 28 2
    fxor := v.getLsbD 26
    was := v.getLsbD 25
    tcrc := v.getLsbD 24 }

/-- One bit as a word. -/
def bitWord (b : Bool) : Word := if b then 1 else 0

/-- The value a read of CONTROL returns (R48, R101). -/
def Ctrl.toWord (c : Ctrl) : Word :=
  (c.tot.setWidth 32 <<< 30) ||| (c.totr.setWidth 32 <<< 28) ||| (bitWord c.fxor <<< 26)
    ||| (bitWord c.was <<< 25) ||| (bitWord c.tcrc <<< 24)

/-- The platform address of a transaction: BASE plus its offset (R30, R43). No rule reads it. -/
def busAddress (t : Transaction) : Nat := Config.base + t.offset

/-- Whether the platform routes a transaction to the block (R7 WINDOW, R43). No rule reads it (log 11). -/
def isRouted (t : Transaction) : Prop := t.offset < Config.window

end Sys2Proof.Machine
end

