-- ==== Sys2Proof/Machine/Engine.lean ====
section
/-! DEFINITION. Engine.lean: the pure computation engine (R59 to R73). -/
namespace Sys2Proof.Machine

/-- The low `w` bits of `v` in reversed order, the other bits 0: bit `i` of the result is bit `w-1-i` of `v`. -/
def revBits {n : Nat} (v : BitVec n) : Nat → BitVec n
  | 0 => 0
  | w + 1 => (revBits v w <<< 1) ||| BitVec.ofNat n (v.getLsbD w).toNat

/-- `rev8(b)` (R60). -/
def rev8 (b : Byte) : Byte := revBits b 8

/-- `revN(v, w)` (R61): all `w` bits as one string. -/
def revN (v : Word) (w : Nat) : Word := revBits v w

/-- `Construct(c)` (R62); a width outside {16, 32} is a fatal configuration error and builds nothing (R73). -/
def construct (c : CrcConfig) : Except Fault Engine :=
  if c.width ∈ Config.widths then .ok { config := c, acc := c.seed } else .error (.unsupportedWidth c.width)

/-- `E.reset()` (R63). -/
def Engine.reset (e : Engine) : Engine := { e with acc := e.config.seed }

/-- Step 1 of `updateByte` (R64): the byte, reversed if the input is reflected. -/
def inputByte (c : CrcConfig) (b : Byte) : Byte := if c.reflectInput then rev8 b else b

/-- The byte XORed into the top byte of the accumulator (R64, R67). -/
def mixByte (c : CrcConfig) (acc : Word) (b : Byte) : Word :=
  acc ^^^ ((inputByte c b).setWidth 32 <<< (c.width - 8))

/-- One shift (R64): left by one, masked, and the polynomial XORed in when the bit shifted out is 1. -/
def shiftStep (c : CrcConfig) (a : Word) : Word :=
  let shifted := (a <<< 1) &&& mask c.width
  if a.getLsbD (c.width - 1) then shifted ^^^ c.polynomial else shifted

/-- `n` shifts. -/
def shiftSteps (c : CrcConfig) : Nat → Word → Word
  | 0, a => a
  | n + 1, a => shiftSteps c n (shiftStep c a)

/-- `E.updateByte(b)` (R64). -/
def Engine.updateByte (e : Engine) (b : Byte) : Engine :=
  { e with acc := shiftSteps e.config 8 (mixByte e.config e.acc b) }

/-- `E.update(bytes)` (R65): sequence order. -/
def Engine.update (e : Engine) (bytes : List Byte) : Engine := bytes.foldl Engine.updateByte e

/-- `E.value` (R68), of the same state every time: a function of accumulator and configuration (R69). -/
def Engine.value (e : Engine) : Word :=
  let v := if e.config.reflectOutput then revN e.acc e.config.width else e.acc
  (v ^^^ e.config.xorOutput) &&& mask e.config.width

end Sys2Proof.Machine
end

