-- ==== Sys2Proof/Machine/Flags.lean ====
section
/-! DEFINITION. Flags.lean: the two flags of the block, `writeAsSeed` and `configDirty` (R14, R15, R78, R79). -/
namespace Sys2Proof.Machine

/-- Set `configDirty` (R78). No comparison with an old value is made. -/
def State.markDirty (s : State) : State := { s with configDirty := true }

/-- Clear `configDirty`: step 4 of reconciliation, and nothing else (R79). -/
def State.clearDirty (s : State) : State := { s with configDirty := false }

/-- The commit event (R102): `was` was 1 before the write and is 0 after it. -/
def isCommit (oldWas newWas : Bool) : Bool := oldWas && !newWas

/-- The test of a DATA access (R76): `configDirty = 1 or engine = none`. -/
def State.isStale (s : State) : Bool := s.configDirty || s.engine.isNone

end Sys2Proof.Machine
end

