-- ==== Sys2Proof/Machine/Ops.lean ====
section
/-! DEFINITION. Ops.lean: the operations the meanings share: reconciliation (R74 to R76), what a transaction delivers
(R5, R9), raising a fault (R116, R117), the log (R108) and the system reset (R122). -/
namespace Sys2Proof.Machine

/-- What `exec` and `step` answer. -/
abbrev Result := Host.Outcome State Fault Refusal

/-! ### Configuration and reconciliation -/

/-- `deriveConfig(POLY, CTRL, seed)` (R74). `was` is not an input. -/
def deriveConfig (poly : Word) (c : Ctrl) (seed : Word) : CrcConfig :=
  { width := selectedWidth c
    polynomial := poly &&& mask (selectedWidth c)
    seed := seed &&& mask (selectedWidth c)
    reflectInput := (ReflectionMode.ofBits c.tot).reflects
    reflectOutput := (ReflectionMode.ofBits c.totr).reflects
    xorOutput := selectedXor c }

/-- The candidate config of a state. -/
def State.candidate (s : State) : CrcConfig := deriveConfig s.poly s.ctrl s.seed

/-- Make an engine with nothing fed the owned one (R16): a new one on a rebuild, the live one after its `reset()`. -/
def State.install (s : State) (e : Engine) : State := { s with engine := some e, fed := false }

/-- `reconcile()` (R75). It answers the new state together with the engine that state owns, or the signal of
`Construct` (R85: never, through the registers). -/
def reconcile (s : State) : Except Fault (State × Engine) :=
  let rebuild : Except Fault (State × Engine) :=
    match construct s.candidate with
    | .ok e => .ok ((s.install e).clearDirty, e)
    | .error f => .error f
  match s.engine with
  | none => rebuild
  | some e => if e.config = s.candidate then .ok ((s.install e.reset).clearDirty, e.reset) else rebuild

/-- `lazyReconcile()` (R76): only if `configDirty = 1` or there is no engine. -/
def lazyReconcile (s : State) : Except Fault (State × Engine) :=
  match s.engine with
  | none => reconcile s
  | some e => if s.configDirty then reconcile s else .ok (s, e)

/-- Feed bytes to the engine `e` the state owns (R65); a non-empty sequence sets the ghost bit (R27). -/
def State.feed (s : State) (e : Engine) (bytes : List Byte) : State :=
  { s with engine := some (e.update bytes), fed := s.fed || !bytes.isEmpty }

/-- The seed store of seed mode (R92): the whole pending seed is replaced, zero-extended. -/
def State.storeSeed (s : State) (d : BusData) : State := State.markDirty { s with seed := d.zext }

/-- Store POLYNOMIAL (R98). -/
def State.storePoly (s : State) (v : Word) : State := State.markDirty { s with poly := v }

/-- Store the five fields of CONTROL from one `wdata` (R100, R104). -/
def State.storeCtrl (s : State) (v : Word) : State := State.markDirty { s with ctrl := Ctrl.ofWord v }

/-! ### What a transaction delivers -/

/-- The tabulation code of a fault (R109; the codes are the spec's own, for tabulation only). -/
def Fault.code : Fault → Nat
  | .unsupportedWidth _ => 1
  | .unsupportedAccessWidth _ _ => 2

/-- The tabulation code of the log event `UnmappedOffset` (R109). -/
def LogEvent.code (_ : LogEvent) : Nat := 3

/-- A completed write. -/
def Response.written : Response := { outcome := .ok, rdata := none, event := none }

/-- A completed read. -/
def Response.ofRead (d : BusData) : Response := { outcome := .ok, rdata := some d, event := none }

/-- A rejected transaction: no data, no event (R9, R116). -/
def Response.rejected (f : Fault) : Response := { outcome := .fault f, rdata := none, event := none }

/-- Deliver a response (R5). -/
def State.respond (s : State) (r : Response) : State := { s with response := some r }

/-- An access at an unmapped offset (R105, R106): one log event, outcome ok, nothing else. -/
def State.logUnmapped (s : State) (ev : LogEvent) (rdata : Option BusData) : State :=
  { s with log := s.log ++ [ev], response := some { outcome := .ok, rdata := rdata, event := some ev } }

/-- Taking a fault (R116, R117): no state of the block changes, the transaction ends with the fault, and the fault is
recorded for the run and never cleared. The next transaction finds the block as it was. -/
def State.raise (s : State) (f : Fault) : State :=
  { s with faults := s.faults ++ [f], response := some (Response.rejected f) }

/-- Go on with a reconciliation's result; the fatal signal of `Construct` stops the machine (R73, R110, log 2). -/
def withEngine (r : Except Fault (State × Engine)) (k : State → Engine → State) : Result :=
  match r with
  | .ok (s, e) => .next (k s e)
  | .error f => .fault f

/-- The doubleword a DATA read reports (R89): 0 in seed mode, else the value of the engine. -/
def dataWord (s : State) (e : Engine) : Word := if s.ctrl.was then 0 else e.value

/-- A DATA read of any size (R89 to R91, R95): reconcile lazily, then report the low bits. -/
def readData (size : Size) (s : State) : Result :=
  withEngine (lazyReconcile s) fun s' e => s'.respond (.ofRead (BusData.ofWord size (dataWord s' e)))

/-- A DATA write in seed mode (R92). -/
def writeSeed (d : BusData) (s : State) : State := (s.storeSeed d).respond .written

/-- A 2- or 4-byte DATA write (R87, R88, R93): `was` is tested before anything else. -/
def writeWideData (d : BusData) (s : State) : Result :=
  if s.ctrl.was then .next (writeSeed d s)
  else .next (s.raise (.unsupportedAccessWidth Config.dataOffset d.size))

/-! ### The system reset -/

/-- `RESET` (R122): every field of the block at its reset value, no reconciliation. It is no transaction: the inputs
still waiting, the sink's log and the faults recorded for the run stay; no response stands (log 3, 5, 6, 7). -/
def State.systemReset (s : State) : State :=
  { s with
    poly := Config.resetPoly
    seed := Config.resetSeed
    ctrl := { tcrc := false, was := false, fxor := false, totr := 0, tot := 0 }
    engine := none
    configDirty := true
    fed := false
    response := none }

end Sys2Proof.Machine
end

