-- ==== Sys2Proof/Machine/ConfigRegs.lean ====
section
/-! DEFINITION. ConfigRegs.lean: the POLYNOMIAL and CONTROL operations and the commit (R98 to R104), and the narrow
accesses to the two registers (R107). -/
namespace Sys2Proof.Machine

/-- `RD_POLY` (R99): the raw field, no side effect. -/
def execRdPoly (s : State) : Result := .next (s.respond (.ofRead (.word s.poly)))

/-- `WR_POLY` (R98): no immediate recomputation. -/
def execWrPoly (v : Word) (s : State) : Result := .next ((s.storePoly v).respond .written)

/-- `RD_CTRL` (R101): no side effect. -/
def execRdCtrl (s : State) : Result := .next (s.respond (.ofRead (.word s.ctrl.toWord)))

/-- `WR_CTRL` (R100, R104): store the fields, set `configDirty`, test the edge of `was`, and on the commit (R102)
reconcile with the new fields; no other case reconciles (R103). -/
def execWrCtrl (v : Word) (s : State) : Result :=
  let stored := s.storeCtrl v
  if isCommit s.ctrl.was stored.ctrl.was then withEngine (reconcile stored) fun s' _ => s'.respond .written
  else .next (stored.respond .written)

/-- A narrow access to POLYNOMIAL or CONTROL: the spec gives it no meaning (R107). -/
def refuseNarrow : Result := .refused .narrowConfigurationAccess

/-- `RD_POLY_B` (R107). -/
def execRdPolyB (_ : State) : Result := refuseNarrow

/-- `RD_POLY_H` (R107). -/
def execRdPolyH (_ : State) : Result := refuseNarrow

/-- `WR_POLY_B` (R107). -/
def execWrPolyB (_ : Byte) (_ : State) : Result := refuseNarrow

/-- `WR_POLY_H` (R107). -/
def execWrPolyH (_ : Half) (_ : State) : Result := refuseNarrow

/-- `RD_CTRL_B` (R107). -/
def execRdCtrlB (_ : State) : Result := refuseNarrow

/-- `RD_CTRL_H` (R107). -/
def execRdCtrlH (_ : State) : Result := refuseNarrow

/-- `WR_CTRL_B` (R107). -/
def execWrCtrlB (_ : Byte) (_ : State) : Result := refuseNarrow

/-- `WR_CTRL_H` (R107). -/
def execWrCtrlH (_ : Half) (_ : State) : Result := refuseNarrow

end Sys2Proof.Machine
end

