-- ==== Sys2Proof/Machine/Data.lean ====
section
/-! DEFINITION. Data.lean: the DATA register operations (R86 to R97). -/
namespace Sys2Proof.Machine

/-- `RD_DATA_B` (R91). -/
def execRdDataB (s : State) : Result := readData .byte s

/-- `RD_DATA_H` (R90). -/
def execRdDataH (s : State) : Result := readData .half s

/-- `RD_DATA_W` (R89). -/
def execRdDataW (s : State) : Result := readData .word s

/-- `WR_DATA_B` (R86, R93): seed store in seed mode, else reconcile lazily and feed the byte. -/
def execWrDataB (v : Byte) (s : State) : Result :=
  if s.ctrl.was then .next (writeSeed (.byte v) s)
  else withEngine (lazyReconcile s) fun s' e => (s'.feed e [v]).respond .written

/-- `WR_DATA_H` (R87). -/
def execWrDataH (v : Half) (s : State) : Result := writeWideData (.half v) s

/-- `WR_DATA_W` (R88). -/
def execWrDataW (v : Word) (s : State) : Result := writeWideData (.word v) s

end Sys2Proof.Machine
end

