-- ==== Sys2Proof/Machine/Unmapped.lean ====
section
/-! DEFINITION. Unmapped.lean: accesses at unmapped offsets (R105, R106). -/
namespace Sys2Proof.Machine

/-- `RD_UNMAPPED` (R105): log event, read data 0, no change of the block. -/
def execRdUnmapped (offset : Nat) (size : Size) (s : State) : Result :=
  .next (s.logUnmapped (.unmappedRead offset size) (some (BusData.zero size)))

/-- `WR_UNMAPPED` (R106): log event, the data discarded. -/
def execWrUnmapped (offset : Nat) (d : BusData) (s : State) : Result :=
  .next (s.logUnmapped (.unmappedWrite offset d) none)

end Sys2Proof.Machine
end

