-- ==== Sys2Proof/Machine/Dispatch.lean ====
section
/-! DEFINITION. Dispatch.lean: one arm per operation of the operation map (R47). -/
namespace Sys2Proof.Machine

def exec (i : Instr) (s : State) : Host.Outcome State Fault Refusal :=
  match i with
  | .rdDataB => Sys2Proof.Machine.execRdDataB s
  | .rdDataH => Sys2Proof.Machine.execRdDataH s
  | .rdDataW => Sys2Proof.Machine.execRdDataW s
  | .wrDataB v => Sys2Proof.Machine.execWrDataB v s
  | .wrDataH v => Sys2Proof.Machine.execWrDataH v s
  | .wrDataW v => Sys2Proof.Machine.execWrDataW v s
  | .rdPoly => Sys2Proof.Machine.execRdPoly s
  | .wrPoly v => Sys2Proof.Machine.execWrPoly v s
  | .rdCtrl => Sys2Proof.Machine.execRdCtrl s
  | .wrCtrl v => Sys2Proof.Machine.execWrCtrl v s
  | .rdPolyB => Sys2Proof.Machine.execRdPolyB s
  | .rdPolyH => Sys2Proof.Machine.execRdPolyH s
  | .wrPolyB v => Sys2Proof.Machine.execWrPolyB v s
  | .wrPolyH v => Sys2Proof.Machine.execWrPolyH v s
  | .rdCtrlB => Sys2Proof.Machine.execRdCtrlB s
  | .rdCtrlH => Sys2Proof.Machine.execRdCtrlH s
  | .wrCtrlB v => Sys2Proof.Machine.execWrCtrlB v s
  | .wrCtrlH v => Sys2Proof.Machine.execWrCtrlH v s
  | .rdUnmapped offset size => Sys2Proof.Machine.execRdUnmapped offset size s
  | .wrUnmapped offset d => Sys2Proof.Machine.execWrUnmapped offset d s

end Sys2Proof.Machine
end

