-- ==== Sys2Proof/Machine/Step.lean ====
section
/-! DEFINITION. Step.lean: one step is one whole transaction or one system reset (R6, R37). -/
namespace Sys2Proof.Machine

/-- The block takes the inputs one at a time in the order it receives them (R38). With no input it does nothing
(R6, R134, log 4). An input that is no transaction is refused (R56). -/
def step (s : State) : Host.Outcome State Fault Refusal :=
  match s.inbox with
  | [] => .next s
  | .reset :: rest => .next (State.systemReset { s with inbox := rest })
  | .transaction t :: rest =>
    match decode t with
    | .ok i => exec i { s with inbox := rest }
    | .error .reservedSizeCode => .refused .invalidSizeCode

/-- `s` with the transaction of a table word as the very next input (log 3, log 9). -/
def State.withFetchWord (s : State) (nbits w : Nat) : State :=
  { s with inbox := .transaction (.ofTableWord (w % 2 ^ nbits)) :: s.inbox }

end Sys2Proof.Machine
end

