-- ==== Sys2Proof/Machine/Table.lean ====
section
/-! DEFINITION. Table.lean: the table-driven update R70 allows. No meaning uses it: it is a refinement whose
equality with the bit-serial rule is stated as an obligation. -/
namespace Sys2Proof.Machine

/-- Entry `k` of the table built from the polynomial and the width: eight shifts of `k` in the top byte. -/
def tableEntry (c : CrcConfig) (k : Nat) : Word :=
  shiftSteps c 8 (BitVec.ofNat 32 k <<< (c.width - 8))

/-- The 256 entries, built once per configuration (R70: derived data, not state). -/
def crcTable (c : CrcConfig) : List Word := (List.range 256).map (tableEntry c)

/-- The table-driven step for one byte: the top byte of the mixed accumulator selects an entry, which is XORed to the
rest moved up by eight. -/
def Engine.updateByteByTable (e : Engine) (b : Byte) : Engine :=
  let a := mixByte e.config e.acc b
  { e with acc := ((a <<< 8) &&& mask e.config.width)
                    ^^^ (crcTable e.config).getD (a.toNat / 2 ^ (e.config.width - 8)) 0 }

/-- The table-driven update. -/
def Engine.updateByTable (e : Engine) (bytes : List Byte) : Engine := bytes.foldl Engine.updateByteByTable e

end Sys2Proof.Machine
end

