-- ==== Sys2Proof/Machine/Pseudo.lean ====
section
/-! DEFINITION. Pseudo.lean: the pseudo-operations (R58) as the inputs they expand to, and the line syntax (R57). -/
namespace Sys2Proof.Machine

/-- The input the host issues for an operation. -/
def inputOf (i : Instr) : BusInput := .transaction (encode i)

/-- `FEED b0 b1 ...` (R58). -/
def feedInputs (bytes : List Byte) : List BusInput := bytes.map fun b => inputOf (.wrDataB b)

/-- `FEED "text"` (R58): the ASCII codes, first character first. -/
def feedText (text : String) : List BusInput := feedInputs (text.toList.map fun c => BitVec.ofNat 8 c.toNat)

/-- `SETSEED s` (R58). -/
def setSeedInput (sd : Word) : BusInput := inputOf (.wrDataW sd)

/-- `COMMIT c` (R58). -/
def commitInput (c : Word) : BusInput := inputOf (.wrCtrl c)

/-- `CONFIGURE c, p, s` (R58): steps 1 to 4 of R126. -/
def configureInputs (c p sd : Word) : List BusInput :=
  [inputOf (.wrCtrl (c ||| 0x02000000)), inputOf (.wrPoly p), setSeedInput sd, commitInput c]

/-- `<value>` of the line syntax: hexadecimal. -/
def hexText (v : Nat) : String := "0x" ++ String.ofList (Nat.toDigits 16 v)

/-- `<reg|offset>` of the line syntax. -/
def offsetText (offset : Nat) : String :=
  if offset = Config.dataOffset then "DATA"
  else if offset = Config.polyOffset then "POLY"
  else if offset = Config.ctrlOffset then "CTRL"
  else hexText offset

/-- `<size>` of the line syntax. -/
def sizeText : Size → String
  | .byte => "B"
  | .half => "H"
  | .word => "W"

/-- A transaction as one line (R57); none for the reserved size code, which denotes no transaction (R56). -/
def transactionText (t : Transaction) : Option String :=
  (Size.ofCode t.sz).map fun size =>
    match t.rw with
    | .read => "RD " ++ offsetText t.offset ++ ", " ++ sizeText size
    | .write => "WR " ++ offsetText t.offset ++ ", " ++ sizeText size ++ ", "
        ++ hexText (BusData.ofWord size t.wdata).zext.toNat

/-- A read as one line together with the `rdata` the rules give (R57). -/
def readText (t : Transaction) (rdata : BusData) : Option String :=
  (transactionText t).map fun line => line ++ " -> " ++ hexText rdata.zext.toNat

/-- An input as one line (R57). -/
def inputText : BusInput → Option String
  | .reset => some "RESET"
  | .transaction t => transactionText t

end Sys2Proof.Machine
end

