-- ==== Sys2Proof/Safety.lean ====
section
/-! DEFINITION. Safety.lean: what counts as a safe run and a good state, in the terms the statements use: invariants
(R18, R20, R22), clean runs (R117), what the host sees (R10), the lifecycle (R27, R82), and which operations do what. -/
namespace Sys2Proof.Machine

/-! ### Invariants -/

/-- The invariant of every config (R17, R18). -/
abbrev CrcConfig.wf (c : CrcConfig) : Prop :=
  c.width ∈ Config.widths ∧ c.polynomial ≤ mask c.width ∧ c.seed ≤ mask c.width ∧ c.xorOutput ≤ mask c.width

/-- The invariant of every engine (R20): a good config, and the accumulator masked to `width` bits. -/
abbrev Engine.wf (e : Engine) : Prop := e.config.wf ∧ e.acc ≤ mask e.config.width

/-- The controller's invariant (R22), with the engine's (R18, R20). -/
structure State.Inv (s : State) : Prop where
  engine_wf : ∀ e, s.engine = some e → e.wf
  clean_config : s.configDirty = false → ∃ e, s.engine = some e ∧ e.config = s.candidate

/-- No fault recorded: the premise a claim about a clean run takes (R117). -/
abbrev State.Clean (s : State) : Prop := s.faults = []

/-- The engine `Construct` builds from the candidate config: what either branch of reconciliation leaves (R81). -/
def State.freshEngine (s : State) : Engine := { config := s.candidate, acc := s.candidate.seed }

/-- `k` steps, stopping where the machine stops: the host's `Host.Core.run` for this machine. -/
def run : Nat → State → Host.Outcome State Fault Refusal
  | 0, s => .next s
  | k + 1, s =>
    match step s with
    | .next s' => run k s'
    | .fault f => .fault f
    | .refused r => .refused r

/-! ### What the host sees -/

/-- The host's view of a state: what the transactions delivered (R5, R9). The registers and the hidden state are
seen only through transactions (R10, R120). -/
structure View where
  response : Option Response
  log      : List LogEvent
  faults   : List Fault
  inbox    : List BusInput
  deriving DecidableEq, Repr

/-- The view of a state. -/
def State.view (s : State) : View :=
  { response := s.response, log := s.log, faults := s.faults, inbox := s.inbox }

/-- The view of how a run ends. -/
def viewOf : Host.Outcome State Fault Refusal → Host.Outcome View Fault Refusal
  | .next s => .next s.view
  | .fault f => .fault f
  | .refused r => .refused r

/-- The block's own state (R10, and the ghost bit): the model's interface fields blanked. -/
def State.block (s : State) : State := { s with inbox := [], response := none, log := [], faults := [] }

/-- The alternative reset of R124: the engine built eagerly from the defaults, `configDirty = 0`. -/
def State.eagerReset : State :=
  { State.reset with configDirty := false, engine := some State.reset.freshEngine }

/-! ### Kinds of operations -/

/-- The three DATA reads. -/
def isDataRead : Instr → Bool
  | .rdDataB | .rdDataH | .rdDataW => true
  | .wrDataB _ | .wrDataH _ | .wrDataW _ | .rdPoly | .wrPoly _ | .rdCtrl | .wrCtrl _
  | .rdPolyB | .rdPolyH | .wrPolyB _ | .wrPolyH _ | .rdCtrlB | .rdCtrlH | .wrCtrlB _ | .wrCtrlH _
  | .rdUnmapped _ _ | .wrUnmapped _ _ => false

/-- The three DATA writes. -/
def isDataWrite : Instr → Bool
  | .wrDataB _ | .wrDataH _ | .wrDataW _ => true
  | .rdDataB | .rdDataH | .rdDataW | .rdPoly | .wrPoly _ | .rdCtrl | .wrCtrl _
  | .rdPolyB | .rdPolyH | .wrPolyB _ | .wrPolyH _ | .rdCtrlB | .rdCtrlH | .wrCtrlB _ | .wrCtrlH _
  | .rdUnmapped _ _ | .wrUnmapped _ _ => false

/-- The two DATA writes wider than a byte. -/
def isWideDataWrite : Instr → Bool
  | .wrDataH _ | .wrDataW _ => true
  | .rdDataB | .rdDataH | .rdDataW | .wrDataB _ | .rdPoly | .wrPoly _ | .rdCtrl | .wrCtrl _
  | .rdPolyB | .rdPolyH | .wrPolyB _ | .wrPolyH _ | .rdCtrlB | .rdCtrlH | .wrCtrlB _ | .wrCtrlH _
  | .rdUnmapped _ _ | .wrUnmapped _ _ => false

/-- The eight narrow accesses to POLYNOMIAL and CONTROL (R107). -/
def isNarrowConfig : Instr → Bool
  | .rdPolyB | .rdPolyH | .wrPolyB _ | .wrPolyH _ | .rdCtrlB | .rdCtrlH | .wrCtrlB _ | .wrCtrlH _ => true
  | .rdDataB | .rdDataH | .rdDataW | .wrDataB _ | .wrDataH _ | .wrDataW _ | .rdPoly | .wrPoly _
  | .rdCtrl | .wrCtrl _ | .rdUnmapped _ _ | .wrUnmapped _ _ => false

/-- The DATA write of a bus value. -/
def dataWriteOf : BusData → Instr
  | .byte v => .wrDataB v
  | .half v => .wrDataH v
  | .word v => .wrDataW v

/-- Whether an operation reconciles in a state: the table of R77 with the test of R76. -/
def reconcilesAt (i : Instr) (s : State) : Bool :=
  match i with
  | .rdDataB | .rdDataH | .rdDataW => s.isStale
  | .wrDataB _ => !s.ctrl.was && s.isStale
  | .wrCtrl v => isCommit s.ctrl.was (v.getLsbD 25)
  | .wrDataH _ | .wrDataW _ | .rdPoly | .wrPoly _ | .rdCtrl
  | .rdPolyB | .rdPolyH | .wrPolyB _ | .wrPolyH _ | .rdCtrlB | .rdCtrlH | .wrCtrlB _ | .wrCtrlH _
  | .rdUnmapped _ _ | .wrUnmapped _ _ => false

/-- Whether an operation feeds the engine in a state (R86). -/
def feedsAt (i : Instr) (s : State) : Bool :=
  match i with
  | .wrDataB _ => !s.ctrl.was
  | .rdDataB | .rdDataH | .rdDataW | .wrDataH _ | .wrDataW _ | .rdPoly | .wrPoly _ | .rdCtrl | .wrCtrl _
  | .rdPolyB | .rdPolyH | .wrPolyB _ | .wrPolyH _ | .rdCtrlB | .rdCtrlH | .wrCtrlB _ | .wrCtrlH _
  | .rdUnmapped _ _ | .wrUnmapped _ _ => false

/-- Whether an operation is one of the writes that set `configDirty`: (a), (b), (c) of R78. -/
def dirtiesAt (i : Instr) (s : State) : Bool :=
  match i with
  | .wrPoly _ | .wrCtrl _ => true
  | .wrDataB _ | .wrDataH _ | .wrDataW _ => s.ctrl.was
  | .rdDataB | .rdDataH | .rdDataW | .rdPoly | .rdCtrl
  | .rdPolyB | .rdPolyH | .wrPolyB _ | .wrPolyH _ | .rdCtrlB | .rdCtrlH | .wrCtrlB _ | .wrCtrlH _
  | .rdUnmapped _ _ | .wrUnmapped _ _ => false

/-! ### The lifecycle -/

/-- RI's informal states (R27). -/
inductive Lifecycle where
  | unconfigured | idle | accumulating
  deriving DecidableEq, Repr

/-- The classification of a state (R27). -/
def State.lifecycle (s : State) : Lifecycle :=
  match s.engine with
  | none => .unconfigured
  | some _ => if s.fed then .accumulating else .idle

end Sys2Proof.Machine
end

