-- ==== Sys2Proof/Certificates/Slice0/Obligations.lean ====
section
/-! DEFINITION. Obligations.lean: the statements for the provers, from the numbered rules of spec/. Throughout,
`response`, `inbox`, `log`, `faults` and `fed` are the model's own fields for what R5, R38, R108, R117 and R27 speak
of (log 3, 5, 6, 7, 8); the block owns no memory (R30), so a frame speaks of every field of State. -/

open Sys2Proof Sys2Proof.Machine

/-! ### Encoding and stepping -/

/-- Words written out from R45 and R47 decode to the operation they stand for; size code 11 is no transaction (R56).
The place of the write data above the descriptor is the model's (log 9). -/
def Obligations.WordsDecodeAsTheMapWrites : Prop :=
  decodeTableWord 8 0b00000000 = some .rdDataB ∧ decodeTableWord 8 0b00100000 = some .rdDataH ∧
  decodeTableWord 8 0b01000000 = some .rdDataW ∧ decodeTableWord 8 0b01000100 = some .rdPoly ∧
  decodeTableWord 8 0b01001000 = some .rdCtrl ∧ decodeTableWord 8 0b00000100 = some .rdPolyB ∧
  decodeTableWord 8 0b10101000 = some (.wrCtrlH 0) ∧ decodeTableWord 8 0b01010000 = some (.rdUnmapped 0x10 .word) ∧
  decodeTableWord 8 0b11001100 = some (.wrUnmapped 0xC (.word 0)) ∧
  decodeTableWord 16 0x3180 = some (.wrDataB 0x31) ∧ decodeTableWord 40 0xA6000000C8 = some (.wrCtrl 0xA6000000) ∧
  decodeTableWord 8 0b01100000 = none ∧ decodeTableWord 8 0b11100000 = none

/-- One step is one whole input, and a transaction that decodes runs as that operation (R6, R37, R38). An input that
is no transaction is refused (R56). That the inputs stand in `inbox`, and that a step without input changes
nothing, is the model's (log 3, log 4). -/
def Obligations.StepRunsDecodedTransaction : Prop :=
  (∀ s t rest i, s.inbox = .transaction t :: rest → decode t = .ok i →
    step s = exec i { s with inbox := rest }) ∧
  (∀ s t rest, s.inbox = .transaction t :: rest → t.sz = 3 → step s = .refused .invalidSizeCode) ∧
  (∀ s rest, s.inbox = .reset :: rest → step s = .next (State.systemReset { s with inbox := rest })) ∧
  (∀ s, s.inbox = [] → step s = .next s)

/-- Decoding an encoded well-formed operation gives it back, at every value of every operand, as a transaction and,
where R45 gives a descriptor, as a table word of 40 bits (R45 to R47; the word's layout is the model's, log 9). -/
def Obligations.DecodeEncodeRoundTrip : Prop :=
  ∀ i : Instr, i.wellFormed = true →
    decode (encode i) = .ok i ∧
    (i.hasDescriptor = true →
      ∃ w, encodeTableWord i = some w ∧ w < 2 ^ 40 ∧ decodeTableWord 40 w = some i)

/-- Whatever decodes is well formed, and encodes to the transaction it came from, less the write data no operation
carries (R35, R47; that such data is ignored is the model's, log 10). -/
def Obligations.DecodedOperationsEncodeBack : Prop :=
  ∀ t i, decode t = .ok i → i.wellFormed = true ∧ encode i = t.canonical

/-- Every descriptor with a size code other than 11 selects the operation of the first row of the map that matches
it, whatever the write data; one with size code 11 selects none (R47, R56: the spec's decision D2). -/
def Obligations.DescriptorSelectsFirstMatchingRow : Prop :=
  ∀ (d : Byte) (wd : Word),
    (d.extractLsb' 5 2 ≠ 3 → ∃ i, decode (.ofDescriptor d wd) = .ok i ∧ operationMapLookup d = some i.mnemonic) ∧
    (d.extractLsb' 5 2 = 3 → decode (.ofDescriptor d wd) = .error .reservedSizeCode)

/-- The order of the checks of a transaction (R115: the spec's decision D5): size code, offset, register size,
accumulate width, body. The five clauses exclude each other. The unmapped clause rests on the spec's decisions D19 and
D20, and that it cuts off write data above the size is the model's choice (log 10); the refusal of a narrow access is
D14; the rejection of a wide write is D4 and D19, and that it answers a next state with the fault recorded is the
model's reading (log 1). -/
def Obligations.CheckOrderDecidesOutcome : Prop :=
  ∀ s t rest, s.inbox = .transaction t :: rest →
    (t.sz = 3 → step s = .refused .invalidSizeCode) ∧
    (t.sz ≠ 3 → isMapped t.offset = false →
      ∃ z, z.code = t.sz ∧
        (t.rw = .read → step s = .next { s with
          inbox := rest, log := s.log ++ [.unmappedRead t.offset z],
          response := some ⟨.ok, some (.zero z), some (.unmappedRead t.offset z)⟩ }) ∧
        (t.rw = .write → step s = .next { s with
          inbox := rest, log := s.log ++ [.unmappedWrite t.offset (.ofWord z t.wdata)],
          response := some ⟨.ok, none, some (.unmappedWrite t.offset (.ofWord z t.wdata))⟩ })) ∧
    (t.sz ≠ 3 → t.offset = 4 ∨ t.offset = 8 → t.sz ≠ 2 → step s = .refused .narrowConfigurationAccess) ∧
    (t.offset = 0 → t.rw = .write → s.ctrl.was = false → t.sz = 1 ∨ t.sz = 2 →
      ∃ z, z.code = t.sz ∧ step s = .next { s with
        inbox := rest, faults := s.faults ++ [.unsupportedAccessWidth 0 z],
        response := some { outcome := .fault (.unsupportedAccessWidth 0 z), rdata := none, event := none } }) ∧
    (t.sz = 2 ∧ (t.offset = 4 ∨ t.offset = 8) ∨
        t.offset = 0 ∧ t.sz ≠ 3 ∧ (t.rw = .read ∨ s.ctrl.was = true ∨ t.sz = 0) →
      ∃ u rd, step s = .next u ∧ u.response = some { outcome := .ok, rdata := rd, event := none } ∧
        u.faults = s.faults ∧ u.log = s.log)

/-! ### The engine -/

/-- R60, R61: `rev8` and `revN` reverse the bits as one string, bit by bit, and are involutions. -/
def Obligations.ReversalsReverseBitStrings : Prop :=
  (∀ (b : Byte) (i : Nat), i < 8 → (rev8 b).getLsbD i = b.getLsbD (7 - i)) ∧
  (∀ b : Byte, rev8 (rev8 b) = b) ∧
  (∀ (v : Word) (w i : Nat), w ≤ 32 → (revN v w).getLsbD i = (decide (i < w) && v.getLsbD (w - 1 - i))) ∧
  (∀ (v : Word) (w : Nat), w ≤ 32 → v.toNat < 2 ^ w → revN (revN v w) w = v)

/-- R62, R73: `Construct` starts the accumulator at the seed for a width of 16 or 32, and for every other width
raises `UnsupportedWidth` with that width and builds nothing. -/
def Obligations.ConstructBuildsOrRefuses : Prop :=
  ∀ c : CrcConfig,
    (c.width = 16 ∨ c.width = 32 → construct c = .ok { config := c, acc := c.seed }) ∧
    (¬(c.width = 16 ∨ c.width = 32) → construct c = .error (.unsupportedWidth c.width))

/-- R63: `reset()` sets the accumulator to the engine's own seed, keeps the config, is idempotent, and changes
nothing on an engine just constructed. -/
def Obligations.EngineResetRestoresSeed : Prop :=
  (∀ e : Engine, e.reset.acc = e.config.seed ∧ e.reset.config = e.config ∧ e.reset.reset = e.reset) ∧
  (∀ (c : CrcConfig) (e : Engine), construct c = .ok e → e.reset = e)

/-- R64 (with the convention of R67, the spec's decision D11): the byte enters the top byte of the accumulator, then
eight shifts; each shift moves every bit up by one and XORs the polynomial in when the top bit was 1. -/
def Obligations.ByteStepShiftsAndXorsBitByBit : Prop :=
  (∀ (e : Engine) (b : Byte), e.updateByte b =
    { e with acc := (shiftStep e.config)^[8] (mixByte e.config e.acc b) }) ∧
  (∀ (e : Engine) (b : Byte) (i : Nat), e.config.wf → i < e.config.width →
    (mixByte e.config e.acc b).getLsbD i =
      (e.acc.getLsbD i ^^ (decide (e.config.width - 8 ≤ i) &&
        (if e.config.reflectInput then b.getLsbD (e.config.width - 1 - i)
          else b.getLsbD (i - (e.config.width - 8)))))) ∧
  (∀ (c : CrcConfig) (a : Word) (i : Nat), c.wf →
    (shiftStep c a).getLsbD i =
      (decide (i < c.width) &&
        ((decide (0 < i) && a.getLsbD (i - 1)) ^^ (a.getLsbD (c.width - 1) && c.polynomial.getLsbD i))))

/-- The zero-polynomial corner of R64: the old accumulator moves up by eight and the byte is lost. -/
def Obligations.ZeroPolynomialOnlyShifts : Prop :=
  ∀ (e : Engine) (b : Byte), e.wf → e.config.polynomial = 0 →
    (e.updateByte b).acc = (e.acc <<< 8) &&& mask e.config.width

/-- R66: feeding two sequences one after the other is feeding their concatenation, and feeding a sequence one byte at
a time is feeding it at once. -/
def Obligations.UpdateIsChunkingIndependent : Prop :=
  (∀ (e : Engine) (xs ys : List Byte), e.update (xs ++ ys) = (e.update xs).update ys) ∧
  (∀ (e : Engine) (xs : List Byte), xs.foldl (fun e b => e.update [b]) e = e.update xs)

/-- R59, R18, R20: every engine operation keeps the values masked to `width` bits, and derived configs are masked. -/
def Obligations.EngineOperationsStayMasked : Prop :=
  (∀ (e : Engine) (xs : List Byte), e.wf → (e.update xs).wf ∧ e.reset.wf ∧ e.value ≤ mask e.config.width) ∧
  (∀ (c : CrcConfig) (e : Engine), c.wf → construct c = .ok e → e.wf) ∧
  (∀ (p : Word) (c : Ctrl) (sd : Word), (deriveConfig p c sd).wf)

/-- R72: in 16-bit mode accumulator and value never exceed 0xFFFF, and a doubleword read of DATA has bits 31:16 equal
to 0, from every state that meets the invariant. -/
def Obligations.SixteenBitChecksumsStayBelowBitSixteen : Prop :=
  (∀ e : Engine, e.wf → e.config.width = 16 → e.acc ≤ 0xFFFF ∧ e.value ≤ 0xFFFF) ∧
  (∀ s : State, s.Inv → s.ctrl.tcrc = true →
    ∃ t v, exec .rdDataW s = .next t ∧ t.response = some (.ofRead (.word v)) ∧ v.extractLsb' 16 16 = 0)

/-- R68: the value is the accumulator, reversed over `width` bits if the output is reflected, then XORed with the
mask; `width` bits wide. -/
def Obligations.ValueTransformsTheOutputOnly : Prop :=
  (∀ (e : Engine) (i : Nat), e.wf → e.value.getLsbD i =
    (decide (i < e.config.width) &&
      ((if e.config.reflectOutput then e.acc.getLsbD (e.config.width - 1 - i) else e.acc.getLsbD i) ^^
        e.config.xorOutput.getLsbD i))) ∧
  (∀ e : Engine, e.wf → e.config.reflectOutput = false → e.config.xorOutput = 0 → e.value = e.acc)

/-- R71: the value with nothing fed, after `Construct` and after `reset()`, with or without an empty update. -/
def Obligations.EmptyMessageValueIsTheTransformedSeed : Prop :=
  (∀ c : CrcConfig, c.wf → ∃ e, construct c = .ok e ∧ e.update [] = e ∧
    e.value = ((if c.reflectOutput then revN c.seed c.width else c.seed) ^^^ c.xorOutput) &&& mask c.width) ∧
  (∀ e : Engine, (e.reset.update []).value = e.reset.value ∧
    e.reset.value = ((if e.config.reflectOutput then revN e.config.seed e.config.width else e.config.seed)
      ^^^ e.config.xorOutput) &&& mask e.config.width)

/-- R70: the table-driven update, its 256 entries built from polynomial and width, leaves the same engine as the
bit-serial rule, for every good engine and every byte sequence. -/
def Obligations.TableDrivenUpdateAgrees : Prop :=
  ∀ (e : Engine) (xs : List Byte), e.wf → e.updateByTable xs = e.update xs

/-! ### Configuration and reconciliation -/

/-- `deriveConfig` (R74) with the width select (R51), the mode table (R50), the masking, and the XOR mask, which is
the spec's decision D10. `was` is no input. -/
def Obligations.DerivedConfigMasksAndMaps : Prop :=
  ∀ (p : Word) (c : Ctrl) (sd : Word),
    (deriveConfig p c sd).width = (if c.tcrc then 16 else 32) ∧
    (deriveConfig p c sd).polynomial.toNat = p.toNat % 2 ^ (deriveConfig p c sd).width ∧
    (deriveConfig p c sd).seed.toNat = sd.toNat % 2 ^ (deriveConfig p c sd).width ∧
    ((deriveConfig p c sd).reflectInput = true ↔ c.tot = 2 ∨ c.tot = 3) ∧
    ((deriveConfig p c sd).reflectOutput = true ↔ c.totr = 2 ∨ c.totr = 3) ∧
    (∀ i, (deriveConfig p c sd).xorOutput.getLsbD i = (c.fxor && decide (i < (deriveConfig p c sd).width))) ∧
    (∀ b, deriveConfig p { c with was := b } sd = deriveConfig p c sd)

/-- R84, R132 (derived by the spec): at 16 bits the upper halves of POLY and seed, and at any width the low bit of a
reflection mode, do not change the candidate; at 32 bits every bit of POLY and seed does. -/
def Obligations.InertWritesKeepTheCandidate : Prop :=
  (∀ (p p' sd sd' : Word) (c : Ctrl), c.tcrc = true → p.setWidth 16 = p'.setWidth 16 →
    sd.setWidth 16 = sd'.setWidth 16 → deriveConfig p c sd = deriveConfig p' c sd') ∧
  (∀ (p sd : Word) (c : Ctrl) (m n : BitVec 2), m.getLsbD 1 = c.tot.getLsbD 1 → n.getLsbD 1 = c.totr.getLsbD 1 →
    deriveConfig p { c with tot := m, totr := n } sd = deriveConfig p c sd) ∧
  (∀ (p p' sd sd' : Word) (c : Ctrl), c.tcrc = false → deriveConfig p c sd = deriveConfig p' c sd' →
    p = p' ∧ sd = sd')

/-- R75: reconciliation resets the live engine when its config equals the candidate, and otherwise makes the engine
constructed from the candidate the owned one; either way the dirty bit is cleared and no other field of the block
changes (of the model's ghost bit `fed` this says nothing). -/
def Obligations.ReconcileRebuildsOrResets : Prop :=
  ∀ s : State,
    (∀ e, s.engine = some e → e.config = s.candidate →
      ∃ b, reconcile s = .ok ({ s with engine := some e.reset, fed := b, configDirty := false }, e.reset)) ∧
    ((∀ e, s.engine = some e → e.config ≠ s.candidate) →
      ∃ e b, construct s.candidate = .ok e ∧
        reconcile s = .ok ({ s with engine := some e, fed := b, configDirty := false }, e))

/-- R76 (the spec's decision D3): the lazy form reconciles exactly when the dirty bit is set or there is no engine. -/
def Obligations.LazyReconcileOnlyWhenStale : Prop :=
  ∀ s : State,
    (s.configDirty = true ∨ s.engine = none → lazyReconcile s = reconcile s) ∧
    (∀ e, s.configDirty = false → s.engine = some e → lazyReconcile s = .ok (s, e))

/-! ### The operations: what each does -/

/-- `WR_DATA_B` in accumulate mode (R86; when it reconciles is the spec's decision D3): the byte is fed to the engine
that lazy reconciliation leaves, and nothing else changes. -/
def Obligations.AccumulateByteWriteFeedsTheEngine : Prop :=
  ∀ (s : State) (v : Byte), s.ctrl.was = false →
    (∀ e, s.configDirty = false → s.engine = some e →
      exec (.wrDataB v) s = .next { s with
        engine := some (e.update [v]), fed := true, response := some .written }) ∧
    (s.configDirty = true ∨ s.engine = none →
      exec (.wrDataB v) s = .next { s with
        engine := some (s.freshEngine.update [v]), fed := true, configDirty := false, response := some .written })

/-- R92 (the spec's decisions D6 and D7): in seed mode a DATA write of every size replaces the whole pending seed by
the zero-extended value, sets the dirty bit, and changes nothing else. -/
def Obligations.SeedModeWriteReplacesTheSeed : Prop :=
  ∀ (s : State), s.ctrl.was = true →
    (∀ v : Byte, exec (.wrDataB v) s = .next { s with
      seed := v.setWidth 32, configDirty := true, response := some .written }) ∧
    (∀ v : Half, exec (.wrDataH v) s = .next { s with
      seed := v.setWidth 32, configDirty := true, response := some .written }) ∧
    (∀ v : Word, exec (.wrDataW v) s = .next { s with
      seed := v, configDirty := true, response := some .written })

/-- R87, R88, R93, R116 (the spec's decisions D4, D5, D19): a 2- or 4-byte DATA write in accumulate mode ends with
`UnsupportedAccessWidth`; the block is left exactly as it was. That the step goes on with the fault recorded is the
model's reading (log 1). -/
def Obligations.WideWriteInAccumulateModeIsRejected : Prop :=
  ∀ s : State, s.ctrl.was = false →
    (∀ v, exec (.wrDataH v) s = .next { s with
      faults := s.faults ++ [.unsupportedAccessWidth 0 .half],
      response := some { outcome := .fault (.unsupportedAccessWidth 0 .half), rdata := none, event := none } }) ∧
    (∀ v, exec (.wrDataW v) s = .next { s with
      faults := s.faults ++ [.unsupportedAccessWidth 0 .word],
      response := some { outcome := .fault (.unsupportedAccessWidth 0 .word), rdata := none, event := none } })

/-- R89: `RD_DATA_W` reconciles lazily, then reports 0 in seed mode and the engine's value otherwise. -/
def Obligations.DoublewordReadReportsTheValue : Prop :=
  ∀ s : State,
    (∀ e, s.configDirty = false → s.engine = some e →
      exec .rdDataW s = .next { s with
        response := some (.ofRead (.word (if s.ctrl.was then 0 else e.value))) }) ∧
    (s.configDirty = true ∨ s.engine = none →
      exec .rdDataW s = .next { s with
        engine := some s.freshEngine, fed := false, configDirty := false,
        response := some (.ofRead (.word (if s.ctrl.was then 0 else s.freshEngine.value))) })

/-- R90, R91, R95 (the spec's decision D16): a 1- or 2-byte read of DATA does to the state what a 4-byte read does, and
reports the low 8 or 16 bits of what that reports. -/
def Obligations.NarrowReadsReportTheLowBits : Prop :=
  ∀ s : State, ∃ t v, exec .rdDataW s = .next t ∧ t.response = some (.ofRead (.word v)) ∧
    exec .rdDataH s = .next { t with response := some (.ofRead (.half (v.extractLsb' 0 16))) } ∧
    exec .rdDataB s = .next { t with response := some (.ofRead (.byte (v.extractLsb' 0 8))) }

/-- R98, R99: `WR_POLY` stores all 32 bits and sets the dirty bit, also for the value already held (the spec's decision
D8); `RD_POLY` reports the raw field (D26: unmasked); neither changes anything else, in either mode. -/
def Obligations.PolynomialRegisterStoresAndReportsRaw : Prop :=
  ∀ s : State,
    (∀ v, exec (.wrPoly v) s = .next { s with poly := v, configDirty := true, response := some .written }) ∧
    exec .rdPoly s = .next { s with response := some (.ofRead (.word s.poly)) }

/-- R100 (the spec's decisions D8, D9, D12): `WR_CTRL` stores the five fields and sets the dirty bit; on the falling
edge of `was` it then reconciles with the new fields, which leaves the engine fresh from the new candidate and the
dirty bit clear. -/
def Obligations.ControlWriteStoresFieldsAndCommits : Prop :=
  ∀ (s : State) (v : Word) (c : Ctrl),
    c = { tot := v.extractLsb' 30 2, totr := v.extractLsb' 28 2, fxor := v.getLsbD 26, was := v.getLsbD 25,
          tcrc := v.getLsbD 24 } →
    (¬(s.ctrl.was = true ∧ v.getLsbD 25 = false) →
      exec (.wrCtrl v) s = .next { s with ctrl := c, configDirty := true, response := some .written }) ∧
    (s.ctrl.was = true ∧ v.getLsbD 25 = false →
      exec (.wrCtrl v) s = .next { s with
        ctrl := c, configDirty := false, fed := false, response := some .written,
        engine := some { config := deriveConfig s.poly c s.seed, acc := (deriveConfig s.poly c s.seed).seed } })

/-- R101 (the field positions and the zeros are the spec's decisions D12, D13): `RD_CTRL` reports the five fields in
their positions and 0 in every other bit, with no side effect. -/
def Obligations.ControlReadReportsFieldsInPlace : Prop :=
  ∀ s : State, ∃ x : Word, exec .rdCtrl s = .next { s with response := some (.ofRead (.word x)) } ∧
    x.extractLsb' 30 2 = s.ctrl.tot ∧ x.extractLsb' 28 2 = s.ctrl.totr ∧ x.getLsbD 27 = false ∧
    x.getLsbD 26 = s.ctrl.fxor ∧ x.getLsbD 25 = s.ctrl.was ∧ x.getLsbD 24 = s.ctrl.tcrc ∧
    x.extractLsb' 0 24 = 0

/-- R48, R55 (the spec's decision D13 for the reserved bits): CONTROL reads back as written, less the reserved bits. -/
def Obligations.ControlReadsBackUnderTheWritableMask : Prop :=
  ∀ (s : State) (v : Word), ∃ t u, exec (.wrCtrl v) s = .next t ∧ exec .rdCtrl t = .next u ∧
    u.response = some (.ofRead (.word (v &&& 0xF7000000)))

/-- R105, R106 (the outcome and the event's content are the spec's decisions D19, D20): the unmapped operations emit
one event and complete; a read returns 0, a write is discarded; nothing of the block changes. -/
def Obligations.UnmappedAccessesOnlyLog : Prop :=
  ∀ (s : State) (offset : Nat),
    (∀ size, ∃ d : BusData, d.size = size ∧ d.zext = 0 ∧
      exec (.rdUnmapped offset size) s = .next { s with
        log := s.log ++ [.unmappedRead offset size],
        response := some { outcome := .ok, rdata := some d, event := some (.unmappedRead offset size) } }) ∧
    (∀ d, exec (.wrUnmapped offset d) s = .next { s with
        log := s.log ++ [.unmappedWrite offset d],
        response := some { outcome := .ok, rdata := none, event := some (.unmappedWrite offset d) } })

/-- R107 (the spec's decision D14): the eight narrow accesses to POLYNOMIAL and CONTROL are refused, in every state,
whatever they carry. -/
def Obligations.NarrowConfigurationAccessesAreRefused : Prop :=
  ∀ s : State,
    exec .rdPolyB s = .refused .narrowConfigurationAccess ∧ exec .rdPolyH s = .refused .narrowConfigurationAccess ∧
    exec .rdCtrlB s = .refused .narrowConfigurationAccess ∧ exec .rdCtrlH s = .refused .narrowConfigurationAccess ∧
    (∀ v, exec (.wrPolyB v) s = .refused .narrowConfigurationAccess) ∧
    (∀ v, exec (.wrPolyH v) s = .refused .narrowConfigurationAccess) ∧
    (∀ v, exec (.wrCtrlB v) s = .refused .narrowConfigurationAccess) ∧
    (∀ v, exec (.wrCtrlH v) s = .refused .narrowConfigurationAccess)

/-- R102 (that the fields of the same write are the ones committed is the spec's decision D9): the commit leaves an
engine whose config is the candidate of the new fields and whose accumulator is the seed masked to the new width, and
a clear dirty bit, whatever engine was there; and no other operation but a DATA access touches the engine or clears
the dirty bit. -/
def Obligations.CommitLoadsTheMaskedSeed : Prop :=
  (∀ (s : State) (v : Word), s.ctrl.was = true → v.getLsbD 25 = false →
    ∃ t e, exec (.wrCtrl v) s = .next t ∧ t.engine = some e ∧ t.configDirty = false ∧
      e.config = deriveConfig t.poly t.ctrl t.seed ∧ t.poly = s.poly ∧ t.seed = s.seed ∧
      e.acc = s.seed &&& mask (if v.getLsbD 24 then 16 else 32)) ∧
  (∀ (s t : State) (i : Instr), isDataRead i = false → isDataWrite i = false →
    (¬∃ v, i = .wrCtrl v ∧ s.ctrl.was = true ∧ v.getLsbD 25 = false) → exec i s = .next t →
    t.engine = s.engine ∧ (s.configDirty = true → t.configDirty = true))

/-- R28: the state after reset; `engine` and `configDirty` are the spec's decision D18, and the five last fields are
the model's (log 3, 5, 6, 7, 8). -/
def Obligations.ResetStateHoldsTheDefaults : Prop :=
  State.reset.poly = 0x00001021 ∧ State.reset.seed = 0xFFFFFFFF ∧ State.reset.ctrl.tcrc = false ∧
  State.reset.ctrl.was = false ∧ State.reset.ctrl.fxor = false ∧ State.reset.ctrl.totr = 0 ∧
  State.reset.ctrl.tot = 0 ∧ State.reset.ctrl.toWord = 0 ∧ State.reset.engine = none ∧
  State.reset.configDirty = true ∧ State.reset.fed = false ∧ State.reset.inbox = [] ∧
  State.reset.response = none ∧ State.reset.log = [] ∧ State.reset.faults = []

/-- R122: the reset event restores every field of the block from any state, also in seed mode, where it is no commit.
`engine` and `configDirty` are the spec's decision D18; what happens to the five last fields is the model's
(log 3, 5, 6, 7, 8). -/
def Obligations.SystemResetRestoresTheDefaults : Prop :=
  ∀ (s : State) (rest : List BusInput), s.inbox = .reset :: rest →
    ∃ t, step s = .next t ∧ t.poly = 0x00001021 ∧ t.seed = 0xFFFFFFFF ∧
      t.ctrl = { tcrc := false, was := false, fxor := false, totr := 0, tot := 0 } ∧
      t.engine = none ∧ t.configDirty = true ∧
      t.fed = false ∧ t.inbox = rest ∧ t.response = none ∧ t.log = s.log ∧ t.faults = s.faults

/-- R125 (derived by the spec): the first accesses after reset: a 4-byte read of DATA, a write of the byte 0x31, a
4-byte write of any value. That the rejected 4-byte write answers a next state that carries the fault is the model's
reading (log 1). -/
def Obligations.FirstAccessesAfterReset : Prop :=
  (∃ t, exec .rdDataW State.reset = .next t ∧ t.response = some (.ofRead (.word 0xFFFFFFFF)) ∧
    t.engine = some ⟨⟨0x00001021, 32, false, false, 0xFFFFFFFF, 0⟩, 0xFFFFFFFF⟩) ∧
  (∃ t e, exec (.wrDataB 0x31) State.reset = .next t ∧ t.engine = some e ∧ e.acc = 0xFFF3060E ∧
    t.configDirty = false) ∧
  (∀ v, ∃ t, exec (.wrDataW v) State.reset = .next t ∧
    t.response = some (.rejected (.unsupportedAccessWidth 0 .word)) ∧ t.engine = none ∧ t.configDirty = true)

/-! ### Frames -/

/-- R80: a POLYNOMIAL write, a CONTROL write that is no commit, and a DATA write in seed mode change no part of the
engine: neither its config nor its accumulator nor whether there is one. -/
def Obligations.ConfigurationWritesLeaveTheEngine : Prop :=
  ∀ (s t : State) (i : Instr), exec i s = .next t →
    (∃ v, i = .wrPoly v) ∨ (∃ v, i = .wrCtrl v ∧ ¬(s.ctrl.was = true ∧ v.getLsbD 25 = false)) ∨
      (isDataWrite i = true ∧ s.ctrl.was = true) →
    t.engine = s.engine

/-- Frame of the three DATA reads (R36): nothing but the engine, the dirty bit and the ghost bit can change, and these
only if the dirty bit was set or there was no engine. -/
def Obligations.DataReadFrame : Prop :=
  ∀ (s t : State) (i : Instr), isDataRead i = true → exec i s = .next t →
    t.poly = s.poly ∧ t.ctrl = s.ctrl ∧ t.seed = s.seed ∧ t.inbox = s.inbox ∧ t.log = s.log ∧
    t.faults = s.faults ∧
    (s.configDirty = false → s.engine ≠ none →
      t.engine = s.engine ∧ t.fed = s.fed ∧ t.configDirty = s.configDirty)

/-- Frame of the three DATA writes (R86 to R88, R92, R93). -/
def Obligations.DataWriteFrame : Prop :=
  ∀ (s t : State) (i : Instr), isDataWrite i = true → exec i s = .next t →
    t.poly = s.poly ∧ t.ctrl = s.ctrl ∧ t.inbox = s.inbox ∧ t.log = s.log ∧
    (s.ctrl.was = false → t.seed = s.seed) ∧
    (s.ctrl.was = true ∨ isWideDataWrite i = true → t.engine = s.engine ∧ t.fed = s.fed) ∧
    (s.ctrl.was = false ∧ isWideDataWrite i = true → t.configDirty = s.configDirty) ∧
    (s.ctrl.was = true ∨ isWideDataWrite i = false → t.faults = s.faults)

/-- Frame of the POLYNOMIAL and CONTROL accesses (R36, R98 to R101). -/
def Obligations.ConfigRegisterFrame : Prop :=
  ∀ (s t : State),
    (∀ v, exec (.wrPoly v) s = .next t →
      t.ctrl = s.ctrl ∧ t.seed = s.seed ∧ t.engine = s.engine ∧ t.fed = s.fed ∧ t.inbox = s.inbox ∧
      t.log = s.log ∧ t.faults = s.faults) ∧
    (∀ v, exec (.wrCtrl v) s = .next t →
      t.poly = s.poly ∧ t.seed = s.seed ∧ t.inbox = s.inbox ∧ t.log = s.log ∧ t.faults = s.faults) ∧
    (exec .rdPoly s = .next t ∨ exec .rdCtrl s = .next t →
      t = { s with response := t.response })

/-- Frame of the unmapped accesses (R105, R106): only the response and the log change. -/
def Obligations.UnmappedAccessFrame : Prop :=
  ∀ (s t : State) (offset : Nat),
    (∃ size, exec (.rdUnmapped offset size) s = .next t) ∨ (∃ d, exec (.wrUnmapped offset d) s = .next t) →
    t = { s with response := t.response, log := t.log } ∧ t.log.length = s.log.length + 1

/-! ### Invariants and whole-machine rules -/

/-- R22: the invariant holds at reset. -/
def Obligations.ResetMeetsTheInvariant : Prop := State.reset.Inv

/-- R22, with the masking of R18 and R20: the invariant holds after reset, and from every state that meets it a step
leads to a state that meets it: every config and every accumulator stays masked to a supported width, and while the
dirty bit is clear there is an engine and its config is the one the current fields derive. -/
def Obligations.StepKeepsTheInvariant : Prop :=
  State.reset.Inv ∧ ∀ s t : State, s.Inv → step s = .next t → t.Inv

/-- R78, R79 (R78 (b), (c) are the spec's decisions D8, D7): after an operation the dirty bit is 0 if the operation
reconciled, else 1 if it is one of the writes that set it, else as before. -/
def Obligations.DirtyBitFollowsWritesAndReconciliation : Prop :=
  ∀ (s t : State) (i : Instr), exec i s = .next t →
    t.configDirty = (if reconcilesAt i s then false else dirtiesAt i s || s.configDirty)

/-- R11, R13, R14, R16: only a POLYNOMIAL write or a reset changes POLY, only a CONTROL write or a reset changes
CONTROL, only a DATA write in seed mode or a reset changes the seed, and only a reset empties the engine holder. -/
def Obligations.FieldsChangeOnlyByTheirOwners : Prop :=
  ∀ s t : State, step s = .next t →
    (∃ rest, s.inbox = .reset :: rest) ∨
    ((t.poly ≠ s.poly → ∃ x rest v, s.inbox = .transaction x :: rest ∧ decode x = .ok (.wrPoly v)) ∧
     (t.ctrl ≠ s.ctrl → ∃ x rest v, s.inbox = .transaction x :: rest ∧ decode x = .ok (.wrCtrl v)) ∧
     (t.seed ≠ s.seed → s.ctrl.was = true ∧
       ∃ x rest d, s.inbox = .transaction x :: rest ∧ decode x = .ok (dataWriteOf d)) ∧
     (s.engine ≠ none → t.engine ≠ none))

/-- R82: the complete transition table of the lifecycle: an accumulate byte write ends Accumulating, any other
reconciling operation ends Idle, every other operation leaves the state where it was, a reset ends Unconfigured. -/
def Obligations.LifecycleFollowsTheTable : Prop :=
  (∀ (s t : State) (i : Instr), exec i s = .next t →
    t.lifecycle =
      (if feedsAt i s then .accumulating else if reconcilesAt i s then .idle else s.lifecycle)) ∧
  (∀ s t rest, s.inbox = .reset :: rest → step s = .next t → t.lifecycle = .unconfigured)

/-- R44, R85, R113: every operation but the refused ones answers a next state, from every state: none stalls, and no
combination of field values stops the machine. The operation has then completed, or it was rejected: that a 2- or
4-byte DATA write in accumulate mode, which R9 and R111 call rejected (the spec's decisions D4, D19), answers a next
state with the fault recorded is the model's reading (log 1). -/
def Obligations.EveryOperationCompletes : Prop :=
  ∀ (s : State) (i : Instr), isNarrowConfig i = false → ∃ t, exec i s = .next t

/-- R111: `UnsupportedAccessWidth` is raised exactly by `WR_DATA_H` and `WR_DATA_W` while `was` is 0. -/
def Obligations.UnsupportedAccessWidthRaisedExactly : Prop :=
  ∀ (s t : State) (i : Instr), exec i s = .next t →
    ((∃ offset size r e, t.response =
        some { outcome := .fault (.unsupportedAccessWidth offset size), rdata := r, event := e }) ↔
      s.ctrl.was = false ∧ ((∃ v, i = .wrDataH v) ∨ (∃ v, i = .wrDataW v)))

/-- R116 (the spec's decision D19): an operation that ends in a fault changes no state of the block and delivers
nothing. -/
def Obligations.FaultsArePrecise : Prop :=
  ∀ (s t : State) (i : Instr) (f : Fault) (r : Response), exec i s = .next t → t.response = some r →
    r.outcome = .fault f → t.block = s.block ∧ r.rdata = none ∧ r.event = none ∧ t.faults = s.faults ++ [f]

/-- R29, R117 (R117 is the spec's decision D19): the block keeps no record of past transactions or faults: two states
that agree on the block do the same to it, deliver the same, and refuse alike, whatever was logged, recorded or
delivered before and whatever waits. -/
def Obligations.HistoryDoesNotInfluenceTheBlock : Prop :=
  ∀ (s s' : State) (i : Instr), s.block = s'.block →
    (∀ t, exec i s = .next t →
      ∃ t', exec i s' = .next t' ∧ t.block = t'.block ∧ t.response = t'.response) ∧
    (∀ r, exec i s = .refused r → exec i s' = .refused r)

/-- R38, R108, R117: a step takes exactly the first waiting input; it emits at most one log event and records at most
one fault, and neither record ever loses an entry (that they stand in State, also across a reset, is the model's,
log 3, 6, 7). -/
def Obligations.InputsInOrderAndRecordsOnlyGrow : Prop :=
  ∀ s t : State, step s = .next t →
    t.inbox = s.inbox.tail ∧
    (∃ es, t.log = s.log ++ es ∧ es.length ≤ 1) ∧ (∃ fs, t.faults = s.faults ++ fs ∧ fs.length ≤ 1)

/-- R96 (derived by the spec): a second DATA read of the same size right after a first changes nothing and returns the
same. -/
def Obligations.RereadReturnsTheSame : Prop :=
  ∀ (s t : State) (i : Instr), isDataRead i = true → exec i s = .next t → exec i t = .next t

/-- The consequence the spec derives in R69: reading the checksum in the middle of a message does not disturb it: with
the dirty bit clear, a byte fed after a read gives what it gives without the read. -/
def Obligations.ReadingDoesNotDisturbTheMessage : Prop :=
  ∀ (s t : State) (i : Instr) (v : Byte), isDataRead i = true → s.configDirty = false → s.engine ≠ none →
    exec i s = .next t → exec (.wrDataB v) t = exec (.wrDataB v) s

/-- R97 (derived by the spec): a seed of any size written in seed mode, committed and read back with nothing fed gives
the masked seed transformed as the commit's CONTROL value says, from every state in seed mode. -/
def Obligations.SeedRoundTrip : Prop :=
  ∀ (s : State) (d : BusData) (v : Word) (c : CrcConfig), s.ctrl.was = true → v.getLsbD 25 = false →
    c = deriveConfig s.poly (Ctrl.ofWord v) d.zext →
    ∃ t u x, exec (dataWriteOf d) s = .next t ∧ exec (.wrCtrl v) t = .next u ∧ exec .rdDataW u = .next x ∧
      x.response = some (.ofRead (.word
        (((if c.reflectOutput then revN (d.zext &&& mask c.width) c.width else d.zext &&& mask c.width)
          ^^^ c.xorOutput) &&& mask c.width)))

/-- R126 (derived by the spec): the documented sequence, from EVERY state: enter seed mode, write the polynomial and
the seed, commit, feed any bytes one by one, read: the read returns the value the pure engine gives for that
configuration and those bytes; no fault is recorded and the inputs behind it still wait. -/
def Obligations.ConfigureFeedReadComputesTheChecksum : Prop :=
  ∀ (s : State) (c p sd : Word) (msg : List Byte) (rest : List BusInput), c.getLsbD 25 = false →
    s.inbox = configureInputs c p sd ++ feedInputs msg ++ inputOf .rdDataW :: rest →
    ∃ t, run (msg.length + 5) s = .next t ∧ t.inbox = rest ∧ t.faults = s.faults ∧
      t.response = some (.ofRead (.word (Engine.value (Engine.update
        { config := deriveConfig p (Ctrl.ofWord c) sd, acc := (deriveConfig p (Ctrl.ofWord c) sd).seed } msg))))

/-- R127, R128, R131 (derived by the spec): while the dirty bit is set, nothing of the engine, not even whether there
is one, can be found out by any inputs: two such states that differ only in the engine are seen alike by the host
after any number of steps. -/
def Obligations.StaleEngineIsUnobservable : Prop :=
  ∀ (s : State) (e : Option Engine) (b : Bool) (k : Nat), s.configDirty = true →
    viewOf (run k s) = viewOf (run k { s with engine := e, fed := b })

/-- R124: whether reset leaves no engine and a set dirty bit (the spec's decision D18, which the model follows) or an
engine built eagerly from the defaults and a clear one cannot be observed: every sequence of inputs delivers the same
after every number of steps. -/
def Obligations.EagerResetIsUnobservable : Prop :=
  ∀ (inputs : List BusInput) (k : Nat),
    viewOf (run k { State.reset with inbox := inputs }) =
      viewOf (run k { State.eagerReset with inbox := inputs })
end

