-- ==== Sys2Proof/Laws/Engine.lean ====
section
/-! SUPPORT. Laws/Engine.lean: the small lemmas of the engine's definitions. -/
namespace Sys2Proof.Machine

/-- Bit `i` of a mask. -/
@[simp] theorem getLsbD_mask (w i : Nat) : (mask w).getLsbD i = (decide (i < 32) && decide (i < w)) := by
  simp [mask, BitVec.getLsbD_ofNat, Nat.testBit_two_pow_sub_one]

/-- The same in the form simp leaves for an index in range. -/
@[simp] theorem getElem_mask (w i : Nat) (hi : i < 32) : (mask w)[i] = decide (i < w) := by
  rw [← BitVec.getLsbD_eq_getElem hi, getLsbD_mask]; simp [hi]

/-- The bits of a reversal of the low `w` bits: the indexing of R60 and R61. -/
theorem getLsbD_revBits {n : Nat} (v : BitVec n) (w i : Nat) (hw : w ≤ n) :
    (revBits v w).getLsbD i = (decide (i < w) && v.getLsbD (w - 1 - i)) := by
  induction w generalizing i with
  | zero => simp [revBits]
  | succ w ih =>
    have hn : 0 < n := by omega
    cases i with
    | zero =>
      cases h : v.getLsbD w <;> simp [revBits, h, hn]
    | succ i =>
      have hb : (BitVec.ofNat n (v.getLsbD w).toNat).getLsbD (i + 1) = false := by
        cases v.getLsbD w <;> simp [BitVec.getLsbD_ofNat, Nat.testBit_succ]
      simp only [revBits, BitVec.getLsbD_or, BitVec.getLsbD_shiftLeft, hb, Bool.or_false, Nat.add_sub_cancel,
        ih i (by omega)]
      by_cases hi : i < w
      · have e : w - (i + 1) = w - 1 - i := by omega
        have : i + 1 < n := by omega
        simp [hi, e, this]
      · simp [hi]

/-- The same in the form simp leaves for an index in range. -/
theorem getElem_revBits {n : Nat} (v : BitVec n) (w i : Nat) (hw : w ≤ n) (hi : i < n) :
    (revBits v w)[i] = (decide (i < w) && v.getLsbD (w - 1 - i)) := by
  rw [← BitVec.getLsbD_eq_getElem hi, getLsbD_revBits v w i hw]

@[simp] theorem Engine.reset_config (e : Engine) : e.reset.config = e.config := rfl

@[simp] theorem Engine.reset_acc (e : Engine) : e.reset.acc = e.config.seed := rfl

@[simp] theorem Engine.updateByte_config (e : Engine) (b : Byte) : (e.updateByte b).config = e.config := rfl

@[simp] theorem Engine.update_nil (e : Engine) : e.update [] = e := rfl

@[simp] theorem Engine.update_cons (e : Engine) (b : Byte) (bs : List Byte) :
    e.update (b :: bs) = (e.updateByte b).update bs := rfl

/-- `E.config` is never changed by an update (R65). -/
@[simp] theorem Engine.update_config (e : Engine) (bs : List Byte) : (e.update bs).config = e.config := by
  induction bs generalizing e with
  | nil => rfl
  | cons b bs ih => simp [ih]

/-- `Construct` succeeds exactly on the supported widths, and then with the accumulator at the seed (R62, R73). -/
theorem construct_eq_ok (c : CrcConfig) (e : Engine) :
    construct c = .ok e ↔ c.width ∈ Config.widths ∧ e = { config := c, acc := c.seed } := by
  unfold construct
  split <;> simp_all [eq_comm]

/-- The supported widths, as cases. -/
theorem mem_widths (w : Nat) : w ∈ Config.widths ↔ w = 16 ∨ w = 32 := by simp

end Sys2Proof.Machine
end

