-- ==== Sys2Proof/Laws/State.lean ====
section
/-! SUPPORT. Laws/State.lean: what each update of the state does to each field, so that no proof unfolds a record
update. -/
namespace Sys2Proof.Machine

/-! ### `State.markDirty` -/

@[simp] theorem State.markDirty_poly (s : State) : (s.markDirty).poly = s.poly := rfl
@[simp] theorem State.markDirty_ctrl (s : State) : (s.markDirty).ctrl = s.ctrl := rfl
@[simp] theorem State.markDirty_seed (s : State) : (s.markDirty).seed = s.seed := rfl
@[simp] theorem State.markDirty_configDirty (s : State) : (s.markDirty).configDirty = true := rfl
@[simp] theorem State.markDirty_engine (s : State) : (s.markDirty).engine = s.engine := rfl
@[simp] theorem State.markDirty_fed (s : State) : (s.markDirty).fed = s.fed := rfl
@[simp] theorem State.markDirty_inbox (s : State) : (s.markDirty).inbox = s.inbox := rfl
@[simp] theorem State.markDirty_response (s : State) : (s.markDirty).response = s.response := rfl
@[simp] theorem State.markDirty_log (s : State) : (s.markDirty).log = s.log := rfl
@[simp] theorem State.markDirty_faults (s : State) : (s.markDirty).faults = s.faults := rfl

/-! ### `State.clearDirty` -/

@[simp] theorem State.clearDirty_poly (s : State) : (s.clearDirty).poly = s.poly := rfl
@[simp] theorem State.clearDirty_ctrl (s : State) : (s.clearDirty).ctrl = s.ctrl := rfl
@[simp] theorem State.clearDirty_seed (s : State) : (s.clearDirty).seed = s.seed := rfl
@[simp] theorem State.clearDirty_configDirty (s : State) : (s.clearDirty).configDirty = false := rfl
@[simp] theorem State.clearDirty_engine (s : State) : (s.clearDirty).engine = s.engine := rfl
@[simp] theorem State.clearDirty_fed (s : State) : (s.clearDirty).fed = s.fed := rfl
@[simp] theorem State.clearDirty_inbox (s : State) : (s.clearDirty).inbox = s.inbox := rfl
@[simp] theorem State.clearDirty_response (s : State) : (s.clearDirty).response = s.response := rfl
@[simp] theorem State.clearDirty_log (s : State) : (s.clearDirty).log = s.log := rfl
@[simp] theorem State.clearDirty_faults (s : State) : (s.clearDirty).faults = s.faults := rfl

/-! ### `State.install` -/

@[simp] theorem State.install_poly (s : State) (e : Engine) : (s.install e).poly = s.poly := rfl
@[simp] theorem State.install_ctrl (s : State) (e : Engine) : (s.install e).ctrl = s.ctrl := rfl
@[simp] theorem State.install_seed (s : State) (e : Engine) : (s.install e).seed = s.seed := rfl
@[simp] theorem State.install_configDirty (s : State) (e : Engine) : (s.install e).configDirty = s.configDirty := rfl
@[simp] theorem State.install_engine (s : State) (e : Engine) : (s.install e).engine = some e := rfl
@[simp] theorem State.install_fed (s : State) (e : Engine) : (s.install e).fed = false := rfl
@[simp] theorem State.install_inbox (s : State) (e : Engine) : (s.install e).inbox = s.inbox := rfl
@[simp] theorem State.install_response (s : State) (e : Engine) : (s.install e).response = s.response := rfl
@[simp] theorem State.install_log (s : State) (e : Engine) : (s.install e).log = s.log := rfl
@[simp] theorem State.install_faults (s : State) (e : Engine) : (s.install e).faults = s.faults := rfl

/-! ### `State.feed` -/

@[simp] theorem State.feed_poly (s : State) (e : Engine) (bs : List Byte) : (s.feed e bs).poly = s.poly := rfl
@[simp] theorem State.feed_ctrl (s : State) (e : Engine) (bs : List Byte) : (s.feed e bs).ctrl = s.ctrl := rfl
@[simp] theorem State.feed_seed (s : State) (e : Engine) (bs : List Byte) : (s.feed e bs).seed = s.seed := rfl
@[simp] theorem State.feed_configDirty (s : State) (e : Engine) (bs : List Byte) :
    (s.feed e bs).configDirty = s.configDirty := rfl
@[simp] theorem State.feed_engine (s : State) (e : Engine) (bs : List Byte) :
    (s.feed e bs).engine = some (e.update bs) := rfl
@[simp] theorem State.feed_fed (s : State) (e : Engine) (bs : List Byte) :
    (s.feed e bs).fed = (s.fed || !bs.isEmpty) := rfl
@[simp] theorem State.feed_inbox (s : State) (e : Engine) (bs : List Byte) : (s.feed e bs).inbox = s.inbox := rfl
@[simp] theorem State.feed_response (s : State) (e : Engine) (bs : List Byte) :
    (s.feed e bs).response = s.response := rfl
@[simp] theorem State.feed_log (s : State) (e : Engine) (bs : List Byte) : (s.feed e bs).log = s.log := rfl
@[simp] theorem State.feed_faults (s : State) (e : Engine) (bs : List Byte) : (s.feed e bs).faults = s.faults := rfl

/-! ### `State.storeSeed` -/

@[simp] theorem State.storeSeed_poly (s : State) (d : BusData) : (s.storeSeed d).poly = s.poly := rfl
@[simp] theorem State.storeSeed_ctrl (s : State) (d : BusData) : (s.storeSeed d).ctrl = s.ctrl := rfl
@[simp] theorem State.storeSeed_seed (s : State) (d : BusData) : (s.storeSeed d).seed = d.zext := rfl
@[simp] theorem State.storeSeed_configDirty (s : State) (d : BusData) : (s.storeSeed d).configDirty = true := rfl
@[simp] theorem State.storeSeed_engine (s : State) (d : BusData) : (s.storeSeed d).engine = s.engine := rfl
@[simp] theorem State.storeSeed_fed (s : State) (d : BusData) : (s.storeSeed d).fed = s.fed := rfl
@[simp] theorem State.storeSeed_inbox (s : State) (d : BusData) : (s.storeSeed d).inbox = s.inbox := rfl
@[simp] theorem State.storeSeed_response (s : State) (d : BusData) : (s.storeSeed d).response = s.response := rfl
@[simp] theorem State.storeSeed_log (s : State) (d : BusData) : (s.storeSeed d).log = s.log := rfl
@[simp] theorem State.storeSeed_faults (s : State) (d : BusData) : (s.storeSeed d).faults = s.faults := rfl

/-! ### `State.storePoly` -/

@[simp] theorem State.storePoly_poly (s : State) (v : Word) : (s.storePoly v).poly = v := rfl
@[simp] theorem State.storePoly_ctrl (s : State) (v : Word) : (s.storePoly v).ctrl = s.ctrl := rfl
@[simp] theorem State.storePoly_seed (s : State) (v : Word) : (s.storePoly v).seed = s.seed := rfl
@[simp] theorem State.storePoly_configDirty (s : State) (v : Word) : (s.storePoly v).configDirty = true := rfl
@[simp] theorem State.storePoly_engine (s : State) (v : Word) : (s.storePoly v).engine = s.engine := rfl
@[simp] theorem State.storePoly_fed (s : State) (v : Word) : (s.storePoly v).fed = s.fed := rfl
@[simp] theorem State.storePoly_inbox (s : State) (v : Word) : (s.storePoly v).inbox = s.inbox := rfl
@[simp] theorem State.storePoly_response (s : State) (v : Word) : (s.storePoly v).response = s.response := rfl
@[simp] theorem State.storePoly_log (s : State) (v : Word) : (s.storePoly v).log = s.log := rfl
@[simp] theorem State.storePoly_faults (s : State) (v : Word) : (s.storePoly v).faults = s.faults := rfl

/-! ### `State.storeCtrl` -/

@[simp] theorem State.storeCtrl_poly (s : State) (v : Word) : (s.storeCtrl v).poly = s.poly := rfl
@[simp] theorem State.storeCtrl_ctrl (s : State) (v : Word) : (s.storeCtrl v).ctrl = Ctrl.ofWord v := rfl
@[simp] theorem State.storeCtrl_seed (s : State) (v : Word) : (s.storeCtrl v).seed = s.seed := rfl
@[simp] theorem State.storeCtrl_configDirty (s : State) (v : Word) : (s.storeCtrl v).configDirty = true := rfl
@[simp] theorem State.storeCtrl_engine (s : State) (v : Word) : (s.storeCtrl v).engine = s.engine := rfl
@[simp] theorem State.storeCtrl_fed (s : State) (v : Word) : (s.storeCtrl v).fed = s.fed := rfl
@[simp] theorem State.storeCtrl_inbox (s : State) (v : Word) : (s.storeCtrl v).inbox = s.inbox := rfl
@[simp] theorem State.storeCtrl_response (s : State) (v : Word) : (s.storeCtrl v).response = s.response := rfl
@[simp] theorem State.storeCtrl_log (s : State) (v : Word) : (s.storeCtrl v).log = s.log := rfl
@[simp] theorem State.storeCtrl_faults (s : State) (v : Word) : (s.storeCtrl v).faults = s.faults := rfl

/-! ### `State.respond` -/

@[simp] theorem State.respond_poly (s : State) (r : Response) : (s.respond r).poly = s.poly := rfl
@[simp] theorem State.respond_ctrl (s : State) (r : Response) : (s.respond r).ctrl = s.ctrl := rfl
@[simp] theorem State.respond_seed (s : State) (r : Response) : (s.respond r).seed = s.seed := rfl
@[simp] theorem State.respond_configDirty (s : State) (r : Response) :
    (s.respond r).configDirty = s.configDirty := rfl
@[simp] theorem State.respond_engine (s : State) (r : Response) : (s.respond r).engine = s.engine := rfl
@[simp] theorem State.respond_fed (s : State) (r : Response) : (s.respond r).fed = s.fed := rfl
@[simp] theorem State.respond_inbox (s : State) (r : Response) : (s.respond r).inbox = s.inbox := rfl
@[simp] theorem State.respond_response (s : State) (r : Response) : (s.respond r).response = some r := rfl
@[simp] theorem State.respond_log (s : State) (r : Response) : (s.respond r).log = s.log := rfl
@[simp] theorem State.respond_faults (s : State) (r : Response) : (s.respond r).faults = s.faults := rfl

/-! ### `State.logUnmapped` -/

@[simp] theorem State.logUnmapped_poly (s : State) (ev : LogEvent) (rd : Option BusData) :
    (s.logUnmapped ev rd).poly = s.poly := rfl
@[simp] theorem State.logUnmapped_ctrl (s : State) (ev : LogEvent) (rd : Option BusData) :
    (s.logUnmapped ev rd).ctrl = s.ctrl := rfl
@[simp] theorem State.logUnmapped_seed (s : State) (ev : LogEvent) (rd : Option BusData) :
    (s.logUnmapped ev rd).seed = s.seed := rfl
@[simp] theorem State.logUnmapped_configDirty (s : State) (ev : LogEvent) (rd : Option BusData) :
    (s.logUnmapped ev rd).configDirty = s.configDirty := rfl
@[simp] theorem State.logUnmapped_engine (s : State) (ev : LogEvent) (rd : Option BusData) :
    (s.logUnmapped ev rd).engine = s.engine := rfl
@[simp] theorem State.logUnmapped_fed (s : State) (ev : LogEvent) (rd : Option BusData) :
    (s.logUnmapped ev rd).fed = s.fed := rfl
@[simp] theorem State.logUnmapped_inbox (s : State) (ev : LogEvent) (rd : Option BusData) :
    (s.logUnmapped ev rd).inbox = s.inbox := rfl
@[simp] theorem State.logUnmapped_response (s : State) (ev : LogEvent) (rd : Option BusData) :
    (s.logUnmapped ev rd).response = some { outcome := .ok, rdata := rd, event := some ev } := rfl
@[simp] theorem State.logUnmapped_log (s : State) (ev : LogEvent) (rd : Option BusData) :
    (s.logUnmapped ev rd).log = s.log ++ [ev] := rfl
@[simp] theorem State.logUnmapped_faults (s : State) (ev : LogEvent) (rd : Option BusData) :
    (s.logUnmapped ev rd).faults = s.faults := rfl

/-! ### `State.raise` -/

@[simp] theorem State.raise_poly (s : State) (f : Fault) : (s.raise f).poly = s.poly := rfl
@[simp] theorem State.raise_ctrl (s : State) (f : Fault) : (s.raise f).ctrl = s.ctrl := rfl
@[simp] theorem State.raise_seed (s : State) (f : Fault) : (s.raise f).seed = s.seed := rfl
@[simp] theorem State.raise_configDirty (s : State) (f : Fault) : (s.raise f).configDirty = s.configDirty := rfl
@[simp] theorem State.raise_engine (s : State) (f : Fault) : (s.raise f).engine = s.engine := rfl
@[simp] theorem State.raise_fed (s : State) (f : Fault) : (s.raise f).fed = s.fed := rfl
@[simp] theorem State.raise_inbox (s : State) (f : Fault) : (s.raise f).inbox = s.inbox := rfl
@[simp] theorem State.raise_response (s : State) (f : Fault) :
    (s.raise f).response = some (Response.rejected f) := rfl
@[simp] theorem State.raise_log (s : State) (f : Fault) : (s.raise f).log = s.log := rfl
@[simp] theorem State.raise_faults (s : State) (f : Fault) : (s.raise f).faults = s.faults ++ [f] := rfl

/-! ### `State.systemReset` -/

@[simp] theorem State.systemReset_poly (s : State) : (s.systemReset).poly = Config.resetPoly := rfl
@[simp] theorem State.systemReset_ctrl (s : State) :
    (s.systemReset).ctrl = { tcrc := false, was := false, fxor := false, totr := 0, tot := 0 } := rfl
@[simp] theorem State.systemReset_seed (s : State) : (s.systemReset).seed = Config.resetSeed := rfl
@[simp] theorem State.systemReset_configDirty (s : State) : (s.systemReset).configDirty = true := rfl
@[simp] theorem State.systemReset_engine (s : State) : (s.systemReset).engine = none := rfl
@[simp] theorem State.systemReset_fed (s : State) : (s.systemReset).fed = false := rfl
@[simp] theorem State.systemReset_inbox (s : State) : (s.systemReset).inbox = s.inbox := rfl
@[simp] theorem State.systemReset_response (s : State) : (s.systemReset).response = none := rfl
@[simp] theorem State.systemReset_log (s : State) : (s.systemReset).log = s.log := rfl
@[simp] theorem State.systemReset_faults (s : State) : (s.systemReset).faults = s.faults := rfl

end Sys2Proof.Machine
end

