-- ==== Sys2Proof/Laws/Ops.lean ====
section
/-! SUPPORT. Laws/Ops.lean: one lemma per shared operation that says everything it can answer. -/
namespace Sys2Proof.Machine

/-! ### Configuration -/

/-- The one-bit width select can only select a supported width (R51, R85). -/
theorem selectedWidth_mem (c : Ctrl) : selectedWidth c ∈ Config.widths := by
  unfold selectedWidth; split <;> simp

@[simp] theorem candidate_width (s : State) : s.candidate.width = selectedWidth s.ctrl := rfl

@[simp] theorem freshEngine_config (s : State) : s.freshEngine.config = s.candidate := rfl

@[simp] theorem freshEngine_acc (s : State) : s.freshEngine.acc = s.candidate.seed := rfl

/-- The candidate reads POLY, CONTROL and the seed, and nothing else (R74). -/
theorem candidate_congr {s t : State} (hp : s.poly = t.poly) (hc : s.ctrl = t.ctrl) (hs : s.seed = t.seed) :
    s.candidate = t.candidate := by simp [State.candidate, hp, hc, hs]

/-- `Construct` of a candidate config builds the fresh engine. -/
theorem construct_candidate (s : State) : construct s.candidate = .ok s.freshEngine :=
  (construct_eq_ok _ _).2 ⟨selectedWidth_mem s.ctrl, rfl⟩

/-! ### Reconciliation -/

/-- All that `reconcile` can answer: the fresh engine installed and the dirty bit cleared, by either branch. -/
theorem reconcile_cases {s : State} {r : Except Fault (State × Engine)} (h : reconcile s = r) :
    r = .ok ((s.install s.freshEngine).clearDirty, s.freshEngine) := by
  subst h
  unfold reconcile
  rw [construct_candidate]
  cases he : s.engine with
  | none => rfl
  | some e =>
    dsimp only
    split
    · next hc =>
      have : e.reset = s.freshEngine := by simp [Engine.reset, State.freshEngine, hc]
      rw [this]
    · rfl

/-- All that `lazyReconcile` can answer (R76). -/
theorem lazyReconcile_cases {s : State} {r : Except Fault (State × Engine)} (h : lazyReconcile s = r) :
    (s.isStale = true ∧ r = .ok ((s.install s.freshEngine).clearDirty, s.freshEngine)) ∨
    (∃ e, s.engine = some e ∧ s.configDirty = false ∧ r = .ok (s, e)) := by
  unfold lazyReconcile at h
  cases he : s.engine with
  | none =>
    rw [he] at h
    exact .inl ⟨by simp [State.isStale, he], reconcile_cases h⟩
  | some e =>
    rw [he] at h
    cases hd : s.configDirty with
    | true => exact .inl ⟨by simp [State.isStale, hd], reconcile_cases (by simpa [hd] using h)⟩
    | false => exact .inr ⟨e, rfl, rfl, by simpa [hd] using h.symm⟩

/-- A state that is not stale owns an engine and is clean. -/
theorem isStale_eq_false {s : State} (h : s.isStale = false) :
    s.configDirty = false ∧ ∃ e, s.engine = some e := by
  simp only [State.isStale, Bool.or_eq_false_iff] at h
  refine ⟨h.1, ?_⟩
  cases he : s.engine with
  | none => simp [he] at h
  | some e => exact ⟨e, rfl⟩

@[simp] theorem withEngine_ok (s : State) (e : Engine) (k : State → Engine → State) :
    withEngine (.ok (s, e)) k = .next (k s e) := rfl

/-! ### DATA accesses -/

/-- All that a DATA read can answer (R89 to R91). -/
theorem readData_cases {size : Size} {s : State} {r : Result} (h : readData size s = r) :
    ∃ s' e, lazyReconcile s = .ok (s', e) ∧
      r = .next (s'.respond (.ofRead (BusData.ofWord size (dataWord s' e)))) := by
  unfold readData at h
  rcases lazyReconcile_cases (s := s) rfl with ⟨-, hr⟩ | ⟨e, -, -, hr⟩ <;>
    exact ⟨_, _, hr, by rw [hr] at h; exact h.symm⟩

/-- All that a 1-byte DATA write can answer (R86). -/
theorem execWrDataB_cases {v : Byte} {s : State} {r : Result} (h : execWrDataB v s = r) :
    (s.ctrl.was = true ∧ r = .next (writeSeed (.byte v) s)) ∨
    (s.ctrl.was = false ∧ ∃ s' e, lazyReconcile s = .ok (s', e) ∧
      r = .next ((s'.feed e [v]).respond .written)) := by
  unfold execWrDataB at h
  cases hw : s.ctrl.was with
  | true => exact .inl ⟨rfl, by simpa [hw] using h.symm⟩
  | false =>
    rcases lazyReconcile_cases (s := s) rfl with ⟨-, hr⟩ | ⟨e, -, -, hr⟩ <;>
      exact .inr ⟨rfl, _, _, hr, by rw [hr] at h; simpa [hw] using h.symm⟩

/-- All that a 2- or 4-byte DATA write can answer (R87, R88). -/
theorem writeWideData_cases {d : BusData} {s : State} {r : Result} (h : writeWideData d s = r) :
    (s.ctrl.was = true ∧ r = .next (writeSeed d s)) ∨
    (s.ctrl.was = false ∧ r = .next (s.raise (.unsupportedAccessWidth Config.dataOffset d.size))) := by
  unfold writeWideData at h
  cases hw : s.ctrl.was with
  | true => exact .inl ⟨rfl, by simpa [hw] using h.symm⟩
  | false => exact .inr ⟨rfl, by simpa [hw] using h.symm⟩

/-- All that a CONTROL write can answer (R100): the commit, or a plain store. -/
theorem execWrCtrl_cases {v : Word} {s : State} {r : Result} (h : execWrCtrl v s = r) :
    (isCommit s.ctrl.was (Ctrl.ofWord v).was = true ∧
      r = .next ((((s.storeCtrl v).install (s.storeCtrl v).freshEngine).clearDirty).respond .written)) ∨
    (isCommit s.ctrl.was (Ctrl.ofWord v).was = false ∧ r = .next ((s.storeCtrl v).respond .written)) := by
  unfold execWrCtrl at h
  dsimp only at h
  rw [reconcile_cases (s := s.storeCtrl v) rfl] at h
  cases hc : isCommit s.ctrl.was (Ctrl.ofWord v).was with
  | true => exact .inl ⟨rfl, by simpa [hc] using h.symm⟩
  | false => exact .inr ⟨rfl, by simpa [hc] using h.symm⟩

/-! ### The lifecycle -/

/-- The classification reads the engine holder and the ghost bit only (R27). -/
theorem lifecycle_congr {s t : State} (he : s.engine = t.engine) (hf : s.fed = t.fed) :
    s.lifecycle = t.lifecycle := by simp [State.lifecycle, he, hf]

/-! ### Decoding and stepping -/

/-- All that a step can do. -/
theorem step_cases {s : State} {r : Result} (h : step s = r) :
    (s.inbox = [] ∧ r = .next s) ∨
    (∃ rest, s.inbox = .reset :: rest ∧ r = .next (State.systemReset { s with inbox := rest })) ∨
    (∃ t rest i, s.inbox = .transaction t :: rest ∧ decode t = .ok i ∧ r = exec i { s with inbox := rest }) ∨
    (∃ t rest, s.inbox = .transaction t :: rest ∧ decode t = .error .reservedSizeCode ∧
      r = .refused .invalidSizeCode) := by
  unfold step at h
  split at h
  · next hi => exact .inl ⟨hi, h.symm⟩
  · next rest hi => exact .inr (.inl ⟨rest, hi, h.symm⟩)
  · next t rest hi =>
    split at h
    · next i hd => exact .inr (.inr (.inl ⟨t, rest, i, hi, hd, h.symm⟩))
    · next hd => exact .inr (.inr (.inr ⟨t, rest, hi, hd, h.symm⟩))

@[simp] theorem run_zero (s : State) : run 0 s = .next s := rfl

/-- A run goes on from the next state of its first step. -/
theorem run_succ_of_next {s t : State} (k : Nat) (h : step s = .next t) : run (k + 1) s = run k t := by
  simp [run, h]

/-- The host's run, one step at a time, for any machine. -/
theorem core_run_succ (M : Host.Core) (k : Nat) (s : M.State) :
    (∀ t, M.step s = .next t → M.run (k + 1) s = M.run k t) ∧
    (∀ f, M.step s = .fault f → M.run (k + 1) s = .fault f) ∧
    (∀ r, M.step s = .refused r → M.run (k + 1) s = .refused r) := by
  refine ⟨fun t h => ?_, fun f h => ?_, fun r h => ?_⟩ <;> simp [Host.Core.run, h]

/-- The runs of the statements are the host's. -/
theorem run_eq_core_run (k : Nat) (s : State) : run k s = Sys2Proof.core.run k s := by
  induction k generalizing s with
  | zero => rfl
  | succ k ih =>
    have hc := core_run_succ Sys2Proof.core k s
    cases h : step s with
    | next t => exact ((run_succ_of_next k h).trans (ih t)).trans (hc.1 t h).symm
    | fault f => exact (show run (k + 1) s = .fault f by simp [run, h]).trans (hc.2.1 f h).symm
    | refused r => exact (show run (k + 1) s = .refused r by simp [run, h]).trans (hc.2.2 r h).symm

@[simp] theorem ofCode_code (z : Size) : Size.ofCode z.code = some z := by cases z <;> decide

/-- A size code is one of the three sizes or the reserved one (R46). -/
theorem ofCode_cases (c : BitVec 2) : (∃ z, Size.ofCode c = some z ∧ c = z.code) ∨ (Size.ofCode c = none ∧ c = 3) := by
  revert c; decide

end Sys2Proof.Machine
end

