-- ==== Sys2Proof/Laws/PerInstr.lean ====
section
/-! SUPPORT. Laws/PerInstr.lean: the statements made for every operation, one lemma per constructor. -/
namespace Sys2Proof.Laws.OpcodeRow

/-- The descriptor an operation encodes to lies in the row of the operation map that bears its mnemonic (R45, R47). -/
def Statement (i : Instr) : Prop :=
  i.hasDescriptor = true → ∃ r ∈ operationMap, r.mnemonic = i.mnemonic ∧ (encode i).descriptor &&& r.dmask = r.dmatch

/-- What each lemma below rests on: a row found by index. -/
theorem of_row {i : Instr} (k : Nat) (r : OpRow) (hk : operationMap[k]? = some r) (hm : r.mnemonic = i.mnemonic)
    (hd : (encode i).descriptor &&& r.dmask = r.dmatch) : Statement i :=
  fun _ => ⟨r, List.mem_of_getElem? hk, hm, hd⟩

/-- The same for a write: its descriptor does not depend on the data but for their size (R45). -/
theorem of_write_row {i : Instr} {offset : Nat} {d : BusData} (z : Size) (k : Nat) (r : OpRow) (hk : operationMap[k]? = some r)
    (hm : r.mnemonic = i.mnemonic) (he : encode i = .writeOf offset d)
    (hz : d.size = z) (hd : (1#1 ++ z.code ++ BitVec.ofNat 5 offset : Byte) &&& r.dmask = r.dmatch) : Statement i :=
  of_row k r hk hm (by subst hz; rw [he]; exact hd)

theorem rdDataB : Statement .rdDataB := of_row 0 _ rfl rfl (by decide)
theorem rdDataH : Statement .rdDataH := of_row 1 _ rfl rfl (by decide)
theorem rdDataW : Statement .rdDataW := of_row 2 _ rfl rfl (by decide)
theorem wrDataB (v : Byte) : Statement (.wrDataB v) := of_write_row .byte 3 _ rfl rfl rfl rfl (by decide)
theorem wrDataH (v : Half) : Statement (.wrDataH v) := of_write_row .half 4 _ rfl rfl rfl rfl (by decide)
theorem wrDataW (v : Word) : Statement (.wrDataW v) := of_write_row .word 5 _ rfl rfl rfl rfl (by decide)
theorem rdPoly : Statement .rdPoly := of_row 6 _ rfl rfl (by decide)
theorem wrPoly (v : Word) : Statement (.wrPoly v) := of_write_row .word 7 _ rfl rfl rfl rfl (by decide)
theorem rdCtrl : Statement .rdCtrl := of_row 8 _ rfl rfl (by decide)
theorem wrCtrl (v : Word) : Statement (.wrCtrl v) := of_write_row .word 9 _ rfl rfl rfl rfl (by decide)
theorem rdPolyB : Statement .rdPolyB := of_row 10 _ rfl rfl (by decide)
theorem rdPolyH : Statement .rdPolyH := of_row 11 _ rfl rfl (by decide)
theorem wrPolyB (v : Byte) : Statement (.wrPolyB v) := of_write_row .byte 12 _ rfl rfl rfl rfl (by decide)
theorem wrPolyH (v : Half) : Statement (.wrPolyH v) := of_write_row .half 13 _ rfl rfl rfl rfl (by decide)
theorem rdCtrlB : Statement .rdCtrlB := of_row 14 _ rfl rfl (by decide)
theorem rdCtrlH : Statement .rdCtrlH := of_row 15 _ rfl rfl (by decide)
theorem wrCtrlB (v : Byte) : Statement (.wrCtrlB v) := of_write_row .byte 16 _ rfl rfl rfl rfl (by decide)
theorem wrCtrlH (v : Half) : Statement (.wrCtrlH v) := of_write_row .half 17 _ rfl rfl rfl rfl (by decide)

/-- The direction bit alone decides the two unmapped rows. -/
theorem rdUnmapped (offset : Nat) (size : Size) : Statement (.rdUnmapped offset size) := fun _ =>
  ⟨_, List.mem_of_getElem? (i := 18) rfl, rfl, by
    simp only [encode, Transaction.readOf, Transaction.descriptor]
    generalize BitVec.ofNat 5 offset = o
    revert o
    cases size <;> decide⟩

theorem wrUnmapped (offset : Nat) (d : BusData) : Statement (.wrUnmapped offset d) := fun _ =>
  ⟨_, List.mem_of_getElem? (i := 19) rfl, rfl, by
    simp only [encode, Transaction.writeOf, Transaction.descriptor]
    generalize BitVec.ofNat 5 offset = o
    revert o
    cases d <;> (simp only [BusData.size]; decide)⟩

end Sys2Proof.Laws.OpcodeRow
end

