-- ==== Sys2Proof/Tests/Slice0.lean ====
section
/-! SUPPORT. Tests/Slice0.lean: the model's own tests. Every expected value is one of the spec's: the operation map
(R47), the vectors of 95_test_vectors.md (E, K, T, X) or a rule's worked example, named at each test. The witnesses at
the end show that the hypotheses of each statement can be met. -/
namespace Sys2Proof.Tests

open Sys2Proof.Machine

/-! ### WellFormed refuses the ill-formed -/

theorem test_wf_rd_unmapped_at_data : (Instr.rdUnmapped 0x0 .word).wellFormed = false := by decide
theorem test_wf_rd_unmapped_at_poly : (Instr.rdUnmapped 0x4 .byte).wellFormed = false := by decide
theorem test_wf_wr_unmapped_at_ctrl : (Instr.wrUnmapped 0x8 (.half 1)).wellFormed = false := by decide
theorem test_wf_inside_a_register : (Instr.rdUnmapped 0x3 .byte).wellFormed = true := by decide
theorem test_no_descriptor_from_0x20 :
    (Instr.rdUnmapped 0x20 .word).hasDescriptor = false ∧ (Instr.rdUnmapped 0x1F .word).hasDescriptor = true := by
  decide

/-! ### Decoding: one word per row of the operation map, written out from R45 to R47 -/

theorem test_decode_data :
    decodeTableWord 8 0x00 = some .rdDataB ∧ decodeTableWord 8 0x20 = some .rdDataH ∧
    decodeTableWord 8 0x40 = some .rdDataW ∧ decodeTableWord 16 0x3180 = some (.wrDataB 0x31) ∧
    decodeTableWord 24 0x3132A0 = some (.wrDataH 0x3132) ∧
    decodeTableWord 40 0x31323334C0 = some (.wrDataW 0x31323334) := by decide
theorem test_decode_poly_ctrl :
    decodeTableWord 8 0x44 = some .rdPoly ∧ decodeTableWord 40 0x04C11DB7C4 = some (.wrPoly 0x04C11DB7) ∧
    decodeTableWord 8 0x48 = some .rdCtrl ∧ decodeTableWord 40 0xA6000000C8 = some (.wrCtrl 0xA6000000) := by decide
theorem test_decode_narrow :
    decodeTableWord 8 0x04 = some .rdPolyB ∧ decodeTableWord 8 0x24 = some .rdPolyH ∧
    decodeTableWord 16 0x2184 = some (.wrPolyB 0x21) ∧ decodeTableWord 24 0x1021A4 = some (.wrPolyH 0x1021) ∧
    decodeTableWord 8 0x08 = some .rdCtrlB ∧ decodeTableWord 8 0x28 = some .rdCtrlH ∧
    decodeTableWord 16 0x0288 = some (.wrCtrlB 0x02) ∧ decodeTableWord 24 0x0102A8 = some (.wrCtrlH 0x0102) := by
  decide
/-- X5 to X9. -/
theorem test_decode_unmapped :
    decodeTableWord 40 0xDEADBEEFCC = some (.wrUnmapped 0xC (.word 0xDEADBEEF)) ∧
    decodeTableWord 8 0x50 = some (.rdUnmapped 0x10 .word) ∧ decodeTableWord 8 0x01 = some (.rdUnmapped 0x1 .byte) ∧
    decodeTableWord 16 0xFF83 = some (.wrUnmapped 0x3 (.byte 0xFF)) ∧
    decodeTableWord 24 0x1234A6 = some (.wrUnmapped 0x6 (.half 0x1234)) := by decide
/-- X15. -/
theorem test_decode_reserved_size : decodeTableWord 8 0x60 = none ∧ decodeTableWord 8 0xE0 = none := by decide
/-- R45: an offset of 0x20 or more is treated as any other unmapped offset. -/
theorem test_decode_beyond_descriptors :
    (match decode { rw := .read, sz := 2, offset := 0x24, wdata := 0 } with
      | .ok i => some i
      | .error _ => none) = some (.rdUnmapped 0x24 .word) := by decide

/-! ### Engine vectors -/

/-- E5, E6, E7. -/
theorem test_rev8 : rev8 0x31 = 0x8C ∧ rev8 0xF0 = 0x0F ∧ rev8 0xA5 = 0xA5 := by decide
/-- E9, E10, E12, E14. -/
theorem test_revN : revN 0x1234 16 = 0x2C48 ∧ revN 0x29B1 16 = 0x8D94 ∧ revN 0x12345678 32 = 0x1E6A2C48 ∧
    revN 0x9B63D02C 32 = 0x340BC6D9 := by decide
/-- E16, E20 (input reflected), E29d (masking after the shift). -/
theorem test_update_byte_16 :
    ((⟨⟨0x1021, 16, false, false, 0, 0⟩, 0xFFFF⟩ : Engine).updateByte 0x31).acc = 0xC782 ∧
    ((⟨⟨0x1021, 16, true, false, 0, 0⟩, 0x0000⟩ : Engine).updateByte 0x01).acc = 0x9188 ∧
    ((⟨⟨0xFFFF, 16, false, false, 0, 0⟩, 0x0000⟩ : Engine).updateByte 0x80).acc = 0x0040 := by decide
/-- E26, E27 (input reflected), E18 (zero polynomial). -/
theorem test_update_byte_32 :
    ((⟨⟨0x04C11DB7, 32, false, false, 0, 0⟩, 0⟩ : Engine).updateByte 0x80).acc = 0x690CE0EE ∧
    ((⟨⟨0x04C11DB7, 32, true, false, 0, 0⟩, 0⟩ : Engine).updateByte 0x01).acc = 0x690CE0EE ∧
    ((⟨⟨0, 32, false, false, 0, 0⟩, 0xFFFFFFFF⟩ : Engine).updateByte 0x12).acc = 0xFFFFFF00 := by decide

/-- MSG9. -/
def msg9 : List Byte := [0x31, 0x32, 0x33, 0x34, 0x35, 0x36, 0x37, 0x38, 0x39]

/-- V1, E40: the check value RI pins. -/
theorem test_check_value :
    ((⟨⟨0x04C11DB7, 32, true, true, 0xFFFFFFFF, 0xFFFFFFFF⟩, 0xFFFFFFFF⟩ : Engine).update msg9).value
      = 0xCBF43926 := by decide +kernel
/-- E49, E53: 16 bits with both reflections. -/
theorem test_messages_16 :
    ((⟨⟨0x1021, 16, true, true, 0xFFFF, 0xFFFF⟩, 0xFFFF⟩ : Engine).update msg9).value = 0x906E ∧
    ((⟨⟨0x8005, 16, true, true, 0, 0⟩, 0⟩ : Engine).update msg9).value = 0xBB3D := by decide +kernel
/-- E34: the value of a seed, reversed and inverted. -/
theorem test_value_of_seed :
    (⟨⟨0x1021, 32, false, true, 0x1234, 0xFFFFFFFF⟩, 0x1234⟩ : Engine).value = 0xD3B7FFFF := by decide
/-- E72: an unsupported width builds nothing. -/
theorem test_construct_width_8 :
    construct ⟨0x07, 8, false, false, 0, 0⟩ = .error (.unsupportedWidth 8) := rfl
/-- E16 by table: the table-driven step agrees (R70). -/
theorem test_table_step :
    (Engine.updateByteByTable ⟨⟨0x1021, 16, false, false, 0, 0⟩, 0xFFFF⟩ 0x31).acc = 0xC782 := by decide

/-! ### Configuration vectors -/

/-- K3. -/
theorem test_derive_16 :
    deriveConfig 0x04C11DB7 (Ctrl.ofWord 0x05000000) 0x1234FFFF = ⟨0x1DB7, 16, false, false, 0xFFFF, 0xFFFF⟩ := by
  decide
/-- K6, K7, K8: reflection modes. -/
theorem test_derive_reflection :
    (deriveConfig 0 (Ctrl.ofWord 0x50000000) 0).reflectInput = false ∧
    (deriveConfig 0 (Ctrl.ofWord 0x80000000) 0).reflectInput = true ∧
    (deriveConfig 0 (Ctrl.ofWord 0x30000000) 0).reflectInput = false ∧
    (deriveConfig 0 (Ctrl.ofWord 0x30000000) 0).reflectOutput = true := by decide
/-- T10, T11 and the writable bits of R48. -/
theorem test_ctrl_word :
    (Ctrl.ofWord 0xFFFFFFFF).toWord = 0xF7000000 ∧ (Ctrl.ofWord 0x08FFFFFF).toWord = 0 ∧
    (Ctrl.ofWord 0x50000000).toWord = 0x50000000 := by decide

/-! ### One step of each operation -/

/-- The next state of an outcome, for looking at it. -/
def after (r : Result) : Option State :=
  match r with
  | .next s => some s
  | .fault _ => none
  | .refused _ => none

/-- A refusal, for looking at it. -/
def refusalOf (r : Result) : Option Refusal :=
  match r with
  | .refused x => some x
  | .next _ => none
  | .fault _ => none

/-- The 16-bit engine of P2 after MSG9: acc 0x29B1, nothing pending. -/
def liveState : State :=
  { State.reset with
    ctrl := Ctrl.ofWord 0x01000000
    seed := 0x1234FFFF
    configDirty := false
    engine := some ⟨⟨0x1021, 16, false, false, 0xFFFF, 0⟩, 0x29B1⟩
    fed := true }

/-- Seed mode: the state of P4 after step 1. -/
def seedState : State := { State.reset with ctrl := Ctrl.ofWord 0x36000000 }

/-- T3. -/
theorem test_rd_data_w_reset :
    ((after (exec .rdDataW State.reset)).map fun t => (t.response, t.configDirty)) =
      some (some (.ofRead (.word 0xFFFFFFFF)), false) := by decide
/-- P2 steps 16, 17. -/
theorem test_rd_data_narrow :
    ((after (exec .rdDataH liveState)).map State.response) = some (some (.ofRead (.half 0x29B1))) ∧
    ((after (exec .rdDataB liveState)).map State.response) = some (some (.ofRead (.byte 0xB1))) := by decide
/-- P4 step 3: seed mode reads 0 and reconciles. -/
theorem test_rd_data_seed_mode :
    ((after (exec .rdDataW seedState)).map fun t => (t.response, t.configDirty)) =
      some (some (.ofRead (.word 0)), false) := by decide
/-- T6. -/
theorem test_wr_data_b_reset :
    ((after (exec (.wrDataB 0x31) State.reset)).map fun t => (t.engine.map Engine.acc, t.configDirty)) =
      some (some 0xFFF3060E, false) := by decide
/-- T17: the upper bits of the seed are cleared. -/
theorem test_wr_data_b_seed :
    ((after (exec (.wrDataB 0xAB) seedState)).map fun t => (t.seed, t.engine)) = some (0x000000AB, none) := by decide
/-- X3 and X1. -/
theorem test_wr_data_h :
    ((after (exec (.wrDataH 0x3132) seedState)).map State.seed) = some 0x00003132 ∧
    ((after (exec (.wrDataH 0x3132) liveState)).map fun t => (t.response, t.faults, t.engine == liveState.engine)) =
      some (some (.rejected (.unsupportedAccessWidth 0 .half)), [.unsupportedAccessWidth 0 .half], true) := by decide
/-- X4: a rejected write reconciles nothing. -/
theorem test_wr_data_w_rejected :
    ((after (exec (.wrDataW 0) State.reset)).map fun t => (t.engine, t.configDirty, t.faults)) =
      some (none, true, [.unsupportedAccessWidth 0 .word]) := by decide
/-- P2 step 3. -/
theorem test_wr_data_w_seed :
    ((after (exec (.wrDataW 0x1234FFFF) seedState)).map State.seed) = some 0x1234FFFF := by decide
/-- T7 and T2. -/
theorem test_poly :
    ((after (exec (.wrPoly 0x04C11DB7) State.reset)).map fun t => (t.poly, t.configDirty, t.engine)) =
      some (0x04C11DB7, true, none) ∧
    ((after (exec .rdPoly State.reset)).map State.response) = some (some (.ofRead (.word 0x00001021))) := by decide
/-- The example of R102. -/
theorem test_wr_ctrl_commit :
    ((after (exec (.wrCtrl 0x01000000)
        { State.reset with ctrl := Ctrl.ofWord 0x03000000, seed := 0x1234FFFF })).map
      fun t => (t.engine, t.configDirty)) =
      some (some ⟨⟨0x1021, 16, false, false, 0xFFFF, 0⟩, 0xFFFF⟩, false) := by decide
/-- P2 step 18: no commit, the engine stays. -/
theorem test_wr_ctrl_no_commit :
    ((after (exec (.wrCtrl 0x05000000) liveState)).map fun t => (t.engine == liveState.engine, t.configDirty)) =
      some (true, true) := by decide
/-- P4 after step 1. -/
theorem test_rd_ctrl :
    ((after (exec .rdCtrl seedState)).map State.response) = some (some (.ofRead (.word 0x36000000))) := by decide
/-- X6. -/
theorem test_rd_unmapped :
    ((after (exec (.rdUnmapped 0x10 .word) liveState)).map fun t => (t.response, t.log, t.configDirty)) =
      some (some ⟨.ok, some (.word 0), some (.unmappedRead 0x10 .word)⟩, [.unmappedRead 0x10 .word], false) := by
  decide
/-- X5. -/
theorem test_wr_unmapped :
    ((after (exec (.wrUnmapped 0xC (.word 0xDEADBEEF)) State.reset)).map fun t => (t.response, t.configDirty)) =
      some (some ⟨.ok, none, some (.unmappedWrite 0xC (.word 0xDEADBEEF))⟩, true) := by decide
/-- X11 to X14. -/
theorem test_narrow_refused :
    refusalOf (exec (.wrPolyH 0x1021) State.reset) = some .narrowConfigurationAccess ∧
    refusalOf (exec .rdCtrlB liveState) = some .narrowConfigurationAccess ∧
    refusalOf (exec (.wrCtrlB 0x02) State.reset) = some .narrowConfigurationAccess ∧
    refusalOf (exec .rdPolyH liveState) = some .narrowConfigurationAccess := by decide
/-- The fetch word is the very next step (T6), and size code 11 is refused (X15). -/
theorem test_fetch_word :
    ((after (step (State.reset.withFetchWord 16 0x3180))).map fun t => t.engine.map Engine.acc) =
      some (some 0xFFF3060E) ∧
    refusalOf (step (State.reset.withFetchWord 8 0x60)) = some .invalidSizeCode := by decide
/-- The example of R122: a reset in seed mode is no commit. -/
theorem test_reset_event :
    ((after (step { seedState with inbox := [.reset], faults := [.unsupportedAccessWidth 0 .half] })).map
      fun t => (t.ctrl.toWord, t.poly, t.engine, t.configDirty, t.faults)) =
      some (0, 0x1021, none, true, [.unsupportedAccessWidth 0 .half]) := by decide

/-! ### Text (R57) -/

/-- The example of R57, and a read. -/
theorem test_text :
    transactionText (encode (.wrDataB 0x31)) = some "WR DATA, B, 0x31" ∧
    transactionText (encode .rdCtrl) = some "RD CTRL, W" ∧ inputText .reset = some "RESET" := by decide

/-! ### Witnesses: the hypotheses of each statement can be met, clause by clause -/

/-- A 16-bit engine with both reflections and the XOR mask. -/
def sampleEngine : Engine := ⟨⟨0x1021, 16, true, true, 0xFFFF, 0xFFFF⟩, 0x89F6⟩

theorem witness_engine_wf : sampleEngine.wf ∧ sampleEngine.config.wf ∧ sampleEngine.config.width = 16 := by decide
theorem witness_engine_wf_32 : (⟨⟨0x04C11DB7, 32, true, true, 0xFFFFFFFF, 0xFFFFFFFF⟩, 0x9B63D02C⟩ : Engine).wf := by
  decide
theorem witness_live_inv : liveState.Inv :=
  ⟨fun e h => by cases h; decide, fun _ => ⟨_, rfl, by decide⟩⟩

/-- StepRunsDecodedTransaction, DecodedOperationsEncodeBack: an inbox whose first transaction decodes. -/
theorem witness_step_decodes :
    ({ State.reset with inbox := [.transaction (encode .rdDataW)] } : State).inbox =
      .transaction (encode .rdDataW) :: [] ∧ decode (encode .rdDataW) = .ok .rdDataW := ⟨rfl, rfl⟩
theorem witness_step_no_transaction :
    ({ State.reset with inbox := [.transaction ⟨.read, 3, 0, 0⟩] } : State).inbox = .transaction ⟨.read, 3, 0, 0⟩ :: [] ∧
    (⟨.read, 3, 0, 0⟩ : Transaction).sz = 3 := ⟨rfl, rfl⟩
theorem witness_step_reset_and_idle :
    ({ State.reset with inbox := [.reset] } : State).inbox = .reset :: [] ∧ State.reset.inbox = [] := ⟨rfl, rfl⟩

/-- DecodeEncodeRoundTrip: the last offset with a descriptor, and one beyond. -/
theorem witness_round_trip :
    (Instr.wrUnmapped 0x1F (.half 0xFFFF)).wellFormed = true ∧
    (Instr.wrUnmapped 0x1F (.half 0xFFFF)).hasDescriptor = true ∧ (Instr.rdUnmapped 0x20 .byte).wellFormed = true := by
  decide

/-- DescriptorSelectsFirstMatchingRow: a descriptor of each clause. -/
theorem witness_descriptor :
    (0xDF : Byte).extractLsb' 5 2 ≠ 3 ∧ (0x60 : Byte).extractLsb' 5 2 = 3 := by decide

/-- CheckOrderDecidesOutcome: a transaction under each clause, at the offsets and sizes where the clauses meet. -/
theorem witness_check_order :
    ((⟨.write, 3, 0, 0⟩ : Transaction).sz = 3) ∧
    ((⟨.read, 0, 1, 0⟩ : Transaction).sz ≠ 3 ∧ isMapped 1 = false ∧ isMapped 9 = false) ∧
    ((⟨.read, 1, 4, 0⟩ : Transaction).sz ≠ 3 ∧ (⟨.read, 1, 8, 0⟩ : Transaction).sz ≠ 2) ∧
    (State.reset.ctrl.was = false ∧ (⟨.write, 1, 0, 0⟩ : Transaction).sz = 1 ∧ (⟨.write, 2, 0, 0⟩ : Transaction).sz = 2) ∧
    ((⟨.write, 2, 4, 0⟩ : Transaction).sz = 2 ∧ seedState.ctrl.was = true ∧ (⟨.write, 0, 0, 0⟩ : Transaction).sz = 0) := by
  decide

/-- ReversalsReverseBitStrings: the widest reversal and a masked value. -/
theorem witness_reversal : 7 < 8 ∧ 32 ≤ 32 ∧ (0xFFFF : Word).toNat < 2 ^ 16 := by decide

/-- ConstructBuildsOrRefuses and EngineResetRestoresSeed. -/
theorem witness_construct :
    (sampleEngine.config.width = 16 ∨ sampleEngine.config.width = 32) ∧
    ¬((17 : Nat) = 16 ∨ (17 : Nat) = 32) ∧
    construct sampleEngine.config = .ok ⟨sampleEngine.config, 0xFFFF⟩ := ⟨by decide, by decide, rfl⟩

/-- ByteStepShiftsAndXorsBitByBit: the top bit of a good config. -/
theorem witness_bit_index : sampleEngine.config.wf ∧ 15 < sampleEngine.config.width := by decide

/-- ZeroPolynomialOnlyShifts (E17). -/
theorem witness_zero_polynomial :
    (⟨⟨0, 16, false, false, 0xFFFF, 0⟩, 0xFFFF⟩ : Engine).wf ∧
    (⟨⟨0, 16, false, false, 0xFFFF, 0⟩, 0xFFFF⟩ : Engine).config.polynomial = 0 := by decide

/-- SixteenBitChecksumsStayBelowBitSixteen. -/
theorem witness_sixteen_bit : liveState.Inv ∧ liveState.ctrl.tcrc = true := ⟨witness_live_inv, rfl⟩

/-- ValueTransformsTheOutputOnly, second clause (E35). -/
theorem witness_plain_value :
    (⟨⟨0x1021, 32, false, false, 0xFFFFFFFF, 0⟩, 0xFFFFFFFF⟩ : Engine).wf ∧
    (⟨⟨0x1021, 32, false, false, 0xFFFFFFFF, 0⟩, 0xFFFFFFFF⟩ : Engine).config.reflectOutput = false := by decide

/-- InertWritesKeepTheCandidate: K15's polynomials, the modes 2 and 3, and a 32-bit CONTROL. -/
theorem witness_inert :
    (Ctrl.ofWord 0x01000000).tcrc = true ∧ (0x00001021 : Word).setWidth 16 = (0xABCD1021 : Word).setWidth 16 ∧
    (2 : BitVec 2).getLsbD 1 = (Ctrl.ofWord 0xF0000000).tot.getLsbD 1 ∧ (Ctrl.ofWord 0).tcrc = false := by decide

/-- ReconcileRebuildsOrResets: the live config equal to the candidate, and different from it (K15, K12). -/
theorem witness_reconcile :
    (∃ e, liveState.engine = some e ∧ e.config = liveState.candidate) ∧
    (∀ e, ({ liveState with poly := 0x8005 } : State).engine = some e →
      e.config ≠ ({ liveState with poly := 0x8005 } : State).candidate) :=
  ⟨⟨_, rfl, by decide⟩, fun e h => by cases h; decide⟩

/-- LazyReconcileOnlyWhenStale, AccumulateByteWriteFeedsTheEngine, DoublewordReadReportsTheValue,
WideWriteInAccumulateModeIsRejected: accumulate mode, clean with an engine, dirty, and without an engine. -/
theorem witness_stale_and_clean :
    (liveState.ctrl.was = false ∧ liveState.configDirty = false ∧ ∃ e, liveState.engine = some e) ∧
    (State.reset.ctrl.was = false ∧ State.reset.configDirty = true ∧ State.reset.engine = none) :=
  ⟨⟨rfl, rfl, _, rfl⟩, rfl, rfl, rfl⟩

/-- SeedModeWriteReplacesTheSeed, CommitLoadsTheMaskedSeed, ControlWriteStoresFieldsAndCommits, SeedRoundTrip: seed
mode, a value that commits and one that does not. -/
theorem witness_seed_mode :
    seedState.ctrl.was = true ∧ (0x34000000 : Word).getLsbD 25 = false ∧
    ¬(seedState.ctrl.was = true ∧ (0x36000000 : Word).getLsbD 25 = false) := by decide

/-- SystemResetRestoresTheDefaults, LifecycleFollowsTheTable (reset clause). -/
theorem witness_reset_input :
    ({ seedState with inbox := [.reset, .reset] } : State).inbox = .reset :: [.reset] ∧
    ∃ t, step { seedState with inbox := [.reset, .reset] } = .next t := ⟨rfl, _, rfl⟩

/-- CommitLoadsTheMaskedSeed, second clause: an operation that is neither a DATA access nor a commit. -/
theorem witness_no_commit :
    isDataRead (.wrCtrl 0) = false ∧ isDataWrite (.wrCtrl 0) = false ∧
    (¬∃ v, Instr.wrCtrl 0 = .wrCtrl v ∧ liveState.ctrl.was = true ∧ v.getLsbD 25 = false) ∧
    ∃ t, exec (.wrCtrl 0) liveState = .next t :=
  ⟨rfl, rfl, fun ⟨_, _, h, _⟩ => absurd h (by decide), _, rfl⟩

/-- ConfigurationWritesLeaveTheEngine: each of its three cases completes. -/
theorem witness_config_writes :
    (∃ t, exec (.wrPoly 0x8005) liveState = .next t) ∧
    (∃ t, exec (.wrCtrl 0x05000000) liveState = .next t ∧
      ¬(liveState.ctrl.was = true ∧ (0x05000000 : Word).getLsbD 25 = false)) ∧
    (∃ t, exec (.wrDataH 0x1234) seedState = .next t ∧ isDataWrite (.wrDataH 0x1234) = true) :=
  ⟨⟨_, rfl⟩, ⟨_, rfl, by decide⟩, ⟨_, rfl, rfl⟩⟩

/-- DataReadFrame, RereadReturnsTheSame, ReadingDoesNotDisturbTheMessage: a read from a clean and from a dirty state. -/
theorem witness_reads :
    (isDataRead .rdDataH = true ∧ ∃ t, exec .rdDataH liveState = .next t) ∧ liveState.configDirty = false ∧
    liveState.engine ≠ none ∧ (∃ t, exec .rdDataB State.reset = .next t) :=
  ⟨⟨rfl, _, rfl⟩, rfl, by decide, _, rfl⟩

/-- DataWriteFrame, UnsupportedAccessWidthRaisedExactly, FaultsArePrecise: a write fed, one stored, one rejected. -/
theorem witness_writes :
    (∃ t, exec (.wrDataB 0xFF) liveState = .next t) ∧ (∃ t, exec (.wrDataW 1) seedState = .next t) ∧
    isWideDataWrite (.wrDataW 1) = true ∧
    (∃ t, exec (.wrDataW 1) liveState = .next t ∧
      t.response = some (.rejected (.unsupportedAccessWidth 0 .word)) ∧
      (Response.rejected (.unsupportedAccessWidth 0 .word)).outcome = .fault (.unsupportedAccessWidth 0 .word)) :=
  ⟨⟨_, rfl⟩, ⟨_, rfl⟩, rfl, _, rfl, rfl, rfl⟩

/-- ConfigRegisterFrame and UnmappedAccessFrame: each operation completes. -/
theorem witness_register_accesses :
    (∃ t, exec (.wrPoly 0) State.reset = .next t) ∧ (∃ t, exec (.wrCtrl 0) seedState = .next t) ∧
    (∃ t, exec .rdPoly State.reset = .next t) ∧ (∃ t, exec .rdCtrl State.reset = .next t) ∧
    (∃ t, exec (.rdUnmapped 1 .byte) State.reset = .next t) ∧
    (∃ t, exec (.wrUnmapped 0xFFFFFFFF (.word 0)) State.reset = .next t) :=
  ⟨⟨_, rfl⟩, ⟨_, rfl⟩, ⟨_, rfl⟩, ⟨_, rfl⟩, ⟨_, rfl⟩, ⟨_, rfl⟩⟩

/-- StepKeepsTheInvariant, FieldsChangeOnlyByTheirOwners, InputsInOrderAndRecordsOnlyGrow: a good state, with a write
waiting that changes a field, and its step. -/
theorem witness_invariant_step :
    ({ liveState with inbox := [inputOf (.wrPoly 7)] } : State).Inv ∧
    (∃ t, step { liveState with inbox := [inputOf (.wrPoly 7)] } = .next t ∧ t.poly ≠ liveState.poly) :=
  ⟨⟨witness_live_inv.engine_wf, witness_live_inv.clean_config⟩, _, rfl, by decide⟩

/-- FieldsChangeOnlyByTheirOwners: CONTROL and the seed are changed as well. -/
theorem witness_owner_steps :
    (∃ t, step { liveState with inbox := [inputOf (.wrCtrl 0)] } = .next t ∧ t.ctrl ≠ liveState.ctrl) ∧
    (∃ t, step { seedState with inbox := [inputOf (.wrDataB 7)] } = .next t ∧ t.seed ≠ seedState.seed) :=
  ⟨⟨_, rfl, by decide⟩, ⟨_, rfl, by decide⟩⟩

/-- DirtyBitFollowsWritesAndReconciliation, LifecycleFollowsTheTable: a step of each kind. -/
theorem witness_kinds :
    (reconcilesAt .rdDataW State.reset = true ∧ ∃ t, exec .rdDataW State.reset = .next t) ∧
    (feedsAt (.wrDataB 1) liveState = true ∧ ∃ t, exec (.wrDataB 1) liveState = .next t) ∧
    (dirtiesAt (.wrPoly 1) liveState = true ∧ ∃ t, exec (.wrPoly 1) liveState = .next t) :=
  ⟨⟨by decide, _, rfl⟩, ⟨by decide, _, rfl⟩, ⟨by decide, _, rfl⟩⟩

/-- EveryOperationCompletes. -/
theorem witness_not_narrow : isNarrowConfig (.wrUnmapped 5 (.byte 0)) = false ∧ isNarrowConfig .rdDataW = false := by
  decide

/-- HistoryDoesNotInfluenceTheBlock: two states with one block and different histories, one operation that completes
and one that is refused. -/
theorem witness_same_block :
    liveState.block = ({ liveState with faults := [.unsupportedAccessWidth 0 .half], inbox := [.reset] } : State).block ∧
    (∃ t, exec .rdDataW liveState = .next t) ∧
    exec .rdPolyB liveState = .refused .narrowConfigurationAccess := ⟨rfl, ⟨_, rfl⟩, rfl⟩

/-- The inputs of P1. -/
def inputsP1 : List BusInput :=
  configureInputs 0xA4000000 0x04C11DB7 0xFFFFFFFF ++ feedInputs msg9 ++ inputOf .rdDataW :: []

/-- ConfigureFeedReadComputesTheChecksum. -/
theorem witness_configure :
    (0xA4000000 : Word).getLsbD 25 = false ∧
    ({ State.reset with inbox := inputsP1 } : State).inbox =
      configureInputs 0xA4000000 0x04C11DB7 0xFFFFFFFF ++ feedInputs msg9 ++ inputOf .rdDataW :: [] :=
  ⟨by decide, rfl⟩

/-- StaleEngineIsUnobservable. -/
theorem witness_stale : State.reset.configDirty = true := rfl

end Sys2Proof.Tests
end

section
/-! The controller's invariant: every config and accumulator stays masked (R18, R20), and while the
dirty bit is clear the engine's config is the one the fields derive (R22). Reset meets it and every step keeps it. -/
namespace Sys2Proof.Machine

/-! ### Masked words -/

theorem and_mask_le (v : Word) (w : Nat) : v &&& mask w ≤ mask w := by
  rw [BitVec.le_def, BitVec.toNat_and]
  exact Nat.and_le_right

/-- A word is masked to a width when it has no bit from that width upward. -/
theorem le_mask_iff_toNat_lt {v : Word} {w : Nat} (hw : w ≤ 32) : v ≤ mask w ↔ v.toNat < 2 ^ w := by
  have hpos : 0 < 2 ^ w := Nat.two_pow_pos w
  have hpow : 2 ^ w ≤ 2 ^ 32 := Nat.pow_le_pow_right (by decide) hw
  rw [BitVec.le_def, mask, BitVec.toNat_ofNat, Nat.mod_eq_of_lt (by omega)]
  omega

theorem xor_le_mask {a b : Word} {w : Nat} (hw : w ≤ 32) (ha : a ≤ mask w) (hb : b ≤ mask w) : a ^^^ b ≤ mask w := by
  rw [le_mask_iff_toNat_lt hw] at *
  rw [BitVec.toNat_xor]
  exact Nat.xor_lt_two_pow ha hb

/-! ### Configs and engines stay masked (R18, R20) -/

theorem le_32_of_mem_widths {w : Nat} (hw : w ∈ Config.widths) : w ≤ 32 := by
  rcases (mem_widths w).1 hw with h | h <;> omega

theorem selectedXor_le_mask (c : Ctrl) : selectedXor c ≤ mask (selectedWidth c) := by
  unfold selectedXor
  split
  · exact BitVec.le_refl _
  · exact Nat.zero_le _

theorem deriveConfig_wf (poly : Word) (c : Ctrl) (seed : Word) : (deriveConfig poly c seed).wf :=
  ⟨selectedWidth_mem c, and_mask_le poly _, and_mask_le seed _, selectedXor_le_mask c⟩

theorem freshEngine_wf (s : State) : s.freshEngine.wf :=
  ⟨deriveConfig_wf _ _ _, and_mask_le s.seed _⟩

/-- One shift answers a masked word whatever it is given: the shifted word is masked, and so is the polynomial. -/
theorem shiftStep_le_mask {c : CrcConfig} (hc : c.wf) (a : Word) : shiftStep c a ≤ mask c.width := by
  have hshift : (a <<< 1) &&& mask c.width ≤ mask c.width := and_mask_le _ _
  obtain ⟨hw, hpoly, -, -⟩ := hc
  unfold shiftStep
  dsimp only
  split
  · exact xor_le_mask (le_32_of_mem_widths hw) hshift hpoly
  · exact hshift

theorem shiftSteps_succ_le_mask {c : CrcConfig} (hc : c.wf) (n : Nat) (a : Word) :
    shiftSteps c (n + 1) a ≤ mask c.width := by
  induction n generalizing a with
  | zero => exact shiftStep_le_mask hc a
  | succ n ih => exact ih (shiftStep c a)

theorem Engine.wf.updateByte {e : Engine} (he : e.wf) (b : Byte) : (e.updateByte b).wf := by
  obtain ⟨hc, -⟩ := he
  exact ⟨hc, shiftSteps_succ_le_mask hc 7 _⟩

theorem Engine.wf.update {e : Engine} (he : e.wf) (bs : List Byte) : (e.update bs).wf := by
  induction bs generalizing e with
  | nil => exact he
  | cons b bs ih => exact ih (he.updateByte b)

/-! ### The updates of the state keep the invariant (R22) -/

/-- The invariant reads the register fields, the dirty bit and the engine holder only. -/
theorem State.Inv.congr {s t : State} (hs : s.Inv) (hp : t.poly = s.poly) (hc : t.ctrl = s.ctrl) (hsd : t.seed = s.seed)
    (hd : t.configDirty = s.configDirty) (he : t.engine = s.engine) : t.Inv where
  engine_wf e h := hs.engine_wf e (he ▸ h)
  clean_config h := by
    rw [candidate_congr hp hc hsd, he]
    exact hs.clean_config (hd ▸ h)

/-- With the dirty bit set only the engine's own masking is left to keep. -/
theorem State.Inv.of_dirty {s t : State} (hs : s.Inv) (hd : t.configDirty = true) (he : t.engine = s.engine) :
    t.Inv where
  engine_wf e h := hs.engine_wf e (he ▸ h)
  clean_config h := by simp [hd] at h

theorem State.Inv.respond {s : State} (hs : s.Inv) (r : Response) : (s.respond r).Inv :=
  hs.congr rfl rfl rfl rfl rfl

theorem State.Inv.writeSeed {s : State} (hs : s.Inv) (d : BusData) : (writeSeed d s).Inv :=
  hs.of_dirty rfl rfl

theorem systemReset_inv (s : State) : s.systemReset.Inv where
  engine_wf e h := by simp at h
  clean_config h := by simp at h

/-- What reconciliation leaves meets the invariant, whatever stood before (R75). -/
theorem reconciled_inv (s : State) : (s.install s.freshEngine).clearDirty.Inv where
  engine_wf e h := by
    obtain rfl : s.freshEngine = e := by simpa using h
    exact freshEngine_wf s
  clean_config _ := ⟨s.freshEngine, rfl, rfl⟩

theorem lazyReconcile_keeps_inv {s s' : State} {e : Engine} (hs : s.Inv) (h : lazyReconcile s = .ok (s', e)) :
    s'.Inv ∧ s'.engine = some e := by
  rcases lazyReconcile_cases h with ⟨-, hr⟩ | ⟨e', he, -, hr⟩ <;> cases hr
  · exact ⟨reconciled_inv s, rfl⟩
  · exact ⟨hs, he⟩

/-- Feeding the owned engine moves its accumulator and leaves its config. -/
theorem State.Inv.feed {s : State} {e : Engine} (hs : s.Inv) (he : s.engine = some e) (bs : List Byte) :
    (s.feed e bs).Inv where
  engine_wf e' h := by
    obtain rfl : e.update bs = e' := by simpa using h
    exact (hs.engine_wf e he).update bs
  clean_config h := by
    obtain ⟨e', he', hc⟩ := hs.clean_config h
    obtain rfl : e = e' := by simpa [he] using he'
    exact ⟨e.update bs, rfl, (e.update_config bs).trans hc⟩

/-! ### The operations and the step keep the invariant -/

theorem readData_keeps_inv {size : Size} {s t : State} (hs : s.Inv) (h : readData size s = .next t) : t.Inv := by
  obtain ⟨s', e, hl, hr⟩ := readData_cases h
  cases hr
  exact (lazyReconcile_keeps_inv hs hl).1.respond _

theorem execWrDataB_keeps_inv {v : Byte} {s t : State} (hs : s.Inv) (h : execWrDataB v s = .next t) : t.Inv := by
  rcases execWrDataB_cases h with ⟨-, hr⟩ | ⟨-, s', e, hl, hr⟩ <;> cases hr
  · exact hs.writeSeed _
  · obtain ⟨hs', he⟩ := lazyReconcile_keeps_inv hs hl
    exact (hs'.feed he [v]).respond _

theorem writeWideData_keeps_inv {d : BusData} {s t : State} (hs : s.Inv) (h : writeWideData d s = .next t) : t.Inv := by
  rcases writeWideData_cases h with ⟨-, hr⟩ | ⟨-, hr⟩ <;> cases hr
  · exact hs.writeSeed d
  · exact hs.congr rfl rfl rfl rfl rfl

theorem execWrCtrl_keeps_inv {v : Word} {s t : State} (hs : s.Inv) (h : execWrCtrl v s = .next t) : t.Inv := by
  rcases execWrCtrl_cases h with ⟨-, hr⟩ | ⟨-, hr⟩ <;> cases hr
  · exact (reconciled_inv (s.storeCtrl v)).respond _
  · exact hs.of_dirty rfl rfl

/-- R22 over the operation map: the register reads and the unmapped accesses leave the block as it was, a POLYNOMIAL
write sets the dirty bit, the narrow accesses answer no next state, and the rest have a lemma each above. -/
theorem exec_keeps_inv {i : Instr} {s t : State} (hs : s.Inv) (h : exec i s = .next t) : t.Inv := by
  cases i with
  | rdDataB | rdDataH | rdDataW => exact readData_keeps_inv hs h
  | wrDataB v => exact execWrDataB_keeps_inv hs h
  | wrDataH v | wrDataW v => exact writeWideData_keeps_inv hs h
  | wrCtrl v => exact execWrCtrl_keeps_inv hs h
  | wrPoly v => cases h; exact hs.of_dirty rfl rfl
  | rdPoly | rdCtrl => cases h; exact hs.respond _
  | rdUnmapped offset size | wrUnmapped offset d => cases h; exact hs.congr rfl rfl rfl rfl rfl
  | rdPolyB | rdPolyH | wrPolyB v | wrPolyH v | rdCtrlB | rdCtrlH | wrCtrlB v | wrCtrlH v => cases h

theorem step_keeps_inv {s t : State} (hs : s.Inv) (h : step s = .next t) : t.Inv := by
  rcases step_cases h with ⟨-, hr⟩ | ⟨rest, -, hr⟩ | ⟨x, rest, i, -, -, hr⟩ | ⟨x, rest, -, -, hr⟩
  · cases hr; exact hs
  · cases hr; exact systemReset_inv _
  · exact exec_keeps_inv (s := { s with inbox := rest }) (hs.congr rfl rfl rfl rfl rfl) hr.symm
  · cases hr

theorem reset_inv : State.reset.Inv := systemReset_inv State.reset

/-- Settles O43: reset meets the invariant because it owns no engine and is dirty, and each step keeps it, by the
cases of `step` and of the operation it runs. -/
theorem stepKeepsTheInvariant : Obligations.StepKeepsTheInvariant :=
  ⟨reset_inv, fun _ _ hs h => step_keeps_inv hs h⟩

end Sys2Proof.Machine
end

section
/-! The engine: reversal (R60, R61), construction and reset (R62, R63, R73), chunking of the message (R66), and the
value a read reports (R68, R71, R72). -/
namespace Sys2Proof.Machine

/-! ### Reversal of a bit string (R60, R61) -/

theorem getLsbD_revN (v : Word) {w : Nat} (hw : w ≤ 32) (i : Nat) :
    (revN v w).getLsbD i = (decide (i < w) && v.getLsbD (w - 1 - i)) :=
  getLsbD_revBits v w i hw

/-- A value below `2 ^ w` has no bit from position `w` upward. -/
theorem getLsbD_eq_false_of_toNat_lt {n w i : Nat} {v : BitVec n} (hv : v.toNat < 2 ^ w) (hi : w ≤ i) :
    v.getLsbD i = false :=
  Nat.testBit_lt_two_pow (hv.trans_le (Nat.pow_le_pow_right (by decide) hi))

/-- A value that fits in `w` bits is its own double reversal: position `i` goes to `w - 1 - i` and back. -/
theorem revBits_revBits {n w : Nat} {v : BitVec n} (hw : w ≤ n) (hv : v.toNat < 2 ^ w) :
    revBits (revBits v w) w = v := by
  refine BitVec.eq_of_getLsbD_eq fun i _ => ?_
  rw [getLsbD_revBits _ w i hw, getLsbD_revBits v w _ hw]
  by_cases hi : i < w
  · have hlt : w - 1 - i < w := by omega
    have hback : w - 1 - (w - 1 - i) = i := by omega
    simp [hi, hlt, hback]
  · simp [hi, getLsbD_eq_false_of_toNat_lt hv (Nat.le_of_not_lt hi)]

/-- Settles O7: both reversals are `revBits`, whose bits a law gives; reflecting an index twice gives it back. -/
theorem reversalsReverseBitStrings : Obligations.ReversalsReverseBitStrings := by
  refine ⟨fun b i hi => ?_, fun b => revBits_revBits (Nat.le_refl 8) b.isLt, fun v w i hw => getLsbD_revN v hw i,
    fun v w hw hv => revBits_revBits hw hv⟩
  rw [rev8, getLsbD_revBits b 8 i (Nat.le_refl 8)]
  simp [hi]

/-! ### Construction and reset (R62, R63, R73) -/

theorem construct_eq_error {c : CrcConfig} (hw : c.width ∉ Config.widths) :
    construct c = .error (.unsupportedWidth c.width) :=
  if_neg hw

/-- Settles O8, one clause for each branch of `construct`. -/
theorem constructBuildsOrRefuses : Obligations.ConstructBuildsOrRefuses := fun c =>
  ⟨fun hw => (construct_eq_ok c _).2 ⟨(mem_widths _).2 hw, rfl⟩,
    fun hw => construct_eq_error fun hmem => hw ((mem_widths _).1 hmem)⟩

/-- A constructed engine already stands at its seed (R62), so a reset finds nothing to change. -/
theorem reset_of_construct {c : CrcConfig} {e : Engine} (h : construct c = .ok e) : e.reset = e := by
  obtain ⟨-, rfl⟩ := (construct_eq_ok c e).1 h
  rfl

/-- Settles O9: a reset writes the accumulator with a seed it does not itself change. -/
theorem engineResetRestoresSeed : Obligations.EngineResetRestoresSeed :=
  ⟨fun e => ⟨e.reset_acc, e.reset_config, rfl⟩, fun _ _ h => reset_of_construct h⟩

/-! ### Feeding in chunks (R66) -/

theorem Engine.update_append (e : Engine) (xs ys : List Byte) : e.update (xs ++ ys) = (e.update xs).update ys :=
  List.foldl_append

/-- One-byte updates, one after the other, are the update of the whole sequence. -/
theorem foldl_update_singleton (e : Engine) (xs : List Byte) :
    xs.foldl (fun e b => e.update [b]) e = e.update xs := by
  induction xs generalizing e with
  | nil => rfl
  | cons b bs ih => exact ih (e.updateByte b)

/-- Settles O12: an update is a fold over the bytes, and a fold over an append is two folds. -/
theorem updateIsChunkingIndependent : Obligations.UpdateIsChunkingIndependent :=
  ⟨Engine.update_append, foldl_update_singleton⟩

/-! ### The value (R68, R71, R72) -/

theorem Engine.value_le_mask (e : Engine) : e.value ≤ mask e.config.width := and_mask_le _ _

/-- A masked word has no bit from the width upward for the mask to clear. -/
theorem and_mask_of_le_mask {v : Word} {w : Nat} (hw : w ≤ 32) (hv : v ≤ mask w) : v &&& mask w = v := by
  have hlt : v.toNat < 2 ^ w := (le_mask_iff_toNat_lt hw).1 hv
  refine BitVec.eq_of_getLsbD_eq fun i hi => ?_
  rw [BitVec.getLsbD_and, getLsbD_mask]
  by_cases hiw : i < w
  · simp [hi, hiw]
  · rw [getLsbD_eq_false_of_toNat_lt hlt (Nat.le_of_not_lt hiw), Bool.false_and]

/-- R68 bit by bit. -/
theorem Engine.getLsbD_value {e : Engine} (hw : e.config.width ≤ 32) (i : Nat) :
    e.value.getLsbD i = (decide (i < e.config.width) &&
      ((if e.config.reflectOutput then e.acc.getLsbD (e.config.width - 1 - i) else e.acc.getLsbD i) ^^
        e.config.xorOutput.getLsbD i)) := by
  simp only [Engine.value, BitVec.getLsbD_and, BitVec.getLsbD_xor, apply_ite (BitVec.getLsbD · i), getLsbD_mask,
    getLsbD_revN _ hw]
  by_cases hi : i < e.config.width
  · have hi32 : i < 32 := by omega
    simp [hi, hi32]
  · simp [hi]

/-- Without reflection and mask the value is the accumulator itself, masked already (R20). -/
theorem Engine.wf.value_eq_acc {e : Engine} (he : e.wf) (hr : e.config.reflectOutput = false)
    (hx : e.config.xorOutput = 0) : e.value = e.acc := by
  obtain ⟨⟨hw, -⟩, hacc⟩ := he
  simp [Engine.value, hr, hx, and_mask_of_le_mask (le_32_of_mem_widths hw) hacc]

/-- Settles O15: the bits of the value, and the identity where no transform is configured. -/
theorem valueTransformsTheOutputOnly : Obligations.ValueTransformsTheOutputOnly :=
  ⟨fun e i ⟨⟨hw, _⟩, _⟩ => e.getLsbD_value (le_32_of_mem_widths hw) i, fun _ he hr hx => he.value_eq_acc hr hx⟩

/-- R68 read at the seed: after a reset the value is a function of the config alone. -/
theorem Engine.reset_value (e : Engine) :
    e.reset.value = ((if e.config.reflectOutput then revN e.config.seed e.config.width else e.config.seed)
      ^^^ e.config.xorOutput) &&& mask e.config.width := rfl

/-- Settles O16: a constructed engine is its own reset, so both clauses are the value after a reset. -/
theorem emptyMessageValueIsTheTransformedSeed : Obligations.EmptyMessageValueIsTheTransformedSeed := by
  refine ⟨fun c ⟨hw, _⟩ => ?_, fun e => ⟨by rw [Engine.update_nil], e.reset_value⟩⟩
  have hc : construct c = .ok { config := c, acc := c.seed } := (construct_eq_ok c _).2 ⟨hw, rfl⟩
  refine ⟨_, hc, Engine.update_nil _, ?_⟩
  rw [← reset_of_construct hc, Engine.reset_value]

/-! ### A DATA read in 16-bit mode (R72, R89) -/

/-- The engine a DATA access goes on with has the config the register fields derive, whether reconciliation ran or the
invariant of the clean state says so (R22, R76). -/
theorem lazyReconcile_config {s s' : State} {e : Engine} (hs : s.Inv) (h : lazyReconcile s = .ok (s', e)) :
    e.config = s.candidate := by
  rcases lazyReconcile_cases h with ⟨-, hr⟩ | ⟨e', he, hclean, hr⟩ <;> cases hr
  · rfl
  · obtain ⟨e₀, he₀, hconfig⟩ := hs.clean_config hclean
    obtain rfl : e = e₀ := by simpa [he] using he₀
    exact hconfig

/-- In seed mode a read reports 0, else the value: masked either way. -/
theorem dataWord_le_mask (s : State) (e : Engine) : dataWord s e ≤ mask e.config.width := by
  unfold dataWord
  split
  · exact Nat.zero_le _
  · exact e.value_le_mask

theorem extractLsb'_eq_zero_of_le_mask_16 {v : Word} (hv : v ≤ mask 16) : v.extractLsb' 16 16 = 0 := by
  have hlt : v.toNat < 2 ^ 16 := (le_mask_iff_toNat_lt (by decide)).1 hv
  refine BitVec.eq_of_toNat_eq ?_
  rw [BitVec.extractLsb'_toNat, Nat.shiftRight_eq_div_pow, Nat.div_eq_of_lt hlt]
  rfl

theorem Engine.wf.le_0xFFFF {e : Engine} (he : e.wf) (hw : e.config.width = 16) :
    e.acc ≤ 0xFFFF ∧ e.value ≤ 0xFFFF := by
  have hmask : mask e.config.width = 0xFFFF := by rw [hw]; decide
  obtain ⟨-, hacc⟩ := he
  exact ⟨hmask ▸ hacc, hmask ▸ e.value_le_mask⟩

/-- A doubleword read reports a word masked to the selected width. -/
theorem rdDataW_reports_masked {s : State} (hs : s.Inv) :
    ∃ t v, exec .rdDataW s = .next t ∧ t.response = some (.ofRead (.word v)) ∧ v ≤ mask (selectedWidth s.ctrl) := by
  obtain ⟨s', e, hl, hr⟩ := readData_cases (size := .word) (s := s) rfl
  have hwidth : e.config.width = selectedWidth s.ctrl := by rw [lazyReconcile_config hs hl, candidate_width]
  exact ⟨_, dataWord s' e, hr, rfl, hwidth ▸ dataWord_le_mask s' e⟩

/-- Settles O14: accumulator, value and read data are masked, and the mask of 16-bit mode is 0xFFFF. -/
theorem sixteenBitChecksumsStayBelowBitSixteen : Obligations.SixteenBitChecksumsStayBelowBitSixteen := by
  refine ⟨fun e he hw => he.le_0xFFFF hw, fun s hs htcrc => ?_⟩
  obtain ⟨t, v, hexec, hresponse, hv⟩ := rdDataW_reports_masked hs
  have hwidth : selectedWidth s.ctrl = 16 := by simp [selectedWidth, htcrc]
  exact ⟨t, v, hexec, hresponse, extractLsb'_eq_zero_of_le_mask_16 (hwidth ▸ hv)⟩

end Sys2Proof.Machine
end

section
/-! Reconciliation (R75), and the writes that leave the engine to the next one (R80). -/
namespace Sys2Proof.Machine

/-! ### Reset and rebuild meet in one engine (R75, R81) -/

/-- Resetting an engine that already has the candidate config gives the engine a rebuild would construct. -/
theorem reset_eq_freshEngine {s : State} {e : Engine} (h : e.config = s.candidate) : e.reset = s.freshEngine := by
  simp [Engine.reset, State.freshEngine, h]

/-- Settles O20: `reconcile` installs the fresh engine by either branch. It is the reset of a live engine whose config
is the candidate, and in every state what `Construct` builds from the candidate. -/
theorem reconcileRebuildsOrResets : Obligations.ReconcileRebuildsOrResets := by
  intro s
  have hr : reconcile s = .ok ((s.install s.freshEngine).clearDirty, s.freshEngine) := reconcile_cases rfl
  constructor
  · intro e _ hconfig
    rw [reset_eq_freshEngine hconfig]
    exact ⟨false, hr⟩
  · intro _
    exact ⟨s.freshEngine, false, construct_candidate s, hr⟩

/-! ### Writes that reconcile nothing (R80) -/

theorem isCommit_eq_true_iff (oldWas newWas : Bool) :
    isCommit oldWas newWas = true ↔ oldWas = true ∧ newWas = false := by
  simp [isCommit]

@[simp] theorem writeSeed_engine (d : BusData) (s : State) : (writeSeed d s).engine = s.engine := rfl

/-- In seed mode a DATA write of any size is the seed store (R92). -/
theorem exec_dataWrite_of_was {i : Instr} {s : State} (hi : isDataWrite i = true) (hw : s.ctrl.was = true) :
    ∃ d, exec i s = .next (writeSeed d s) := by
  cases i with
  | wrDataB v => exact ⟨.byte v, if_pos hw⟩
  | wrDataH v => exact ⟨.half v, if_pos hw⟩
  | wrDataW v => exact ⟨.word v, if_pos hw⟩
  | _ => cases hi

/-- Off the commit edge a CONTROL write is a plain store (R103). -/
theorem exec_wrCtrl_of_not_commit {v : Word} {s : State} (hc : ¬(s.ctrl.was = true ∧ v.getLsbD 25 = false)) :
    exec (.wrCtrl v) s = .next ((s.storeCtrl v).respond .written) := by
  rcases execWrCtrl_cases (v := v) (s := s) rfl with ⟨hcommit, -⟩ | ⟨-, hr⟩
  · exact absurd ((isCommit_eq_true_iff _ _).1 hcommit) hc
  · exact hr

/-- Settles O37: each of the three writes stores a register field and sets the dirty bit, and no store reaches the
engine. -/
theorem configurationWritesLeaveTheEngine : Obligations.ConfigurationWritesLeaveTheEngine := by
  rintro s t i h (⟨v, rfl⟩ | ⟨v, rfl, hc⟩ | ⟨hi, hw⟩)
  · cases h
    rfl
  · rw [exec_wrCtrl_of_not_commit hc] at h
    cases h
    rfl
  · obtain ⟨d, hd⟩ := exec_dataWrite_of_was hi hw
    rw [hd] at h
    cases h
    exact writeSeed_engine d s

end Sys2Proof.Machine
end

section
/-! How a transaction ends (R9): which operations end in the fault of R111, and that all others complete. -/
namespace Sys2Proof.Machine

theorem isWideDataWrite_eq_true_iff (i : Instr) :
    isWideDataWrite i = true ↔ (∃ v, i = .wrDataH v) ∨ (∃ v, i = .wrDataW v) := by
  cases i <;> simp [isWideDataWrite]

/-- The transaction that led to this state ended with outcome ok (R9). -/
def State.Completed (t : State) : Prop :=
  ∃ rd ev, t.response = some { outcome := .ok, rdata := rd, event := ev }

/-- A completed transaction delivers no fault. -/
theorem State.Completed.response_ne_fault {t : State} (ht : t.Completed) (f : Fault) (rd : Option BusData)
    (ev : Option LogEvent) : t.response ≠ some { outcome := .fault f, rdata := rd, event := ev } := by
  obtain ⟨rd', ev', hr⟩ := ht
  simp [hr]

theorem readData_completes {size : Size} {s t : State} (h : readData size s = .next t) : t.Completed := by
  obtain ⟨s', e, -, hr⟩ := readData_cases h
  cases hr
  exact ⟨_, _, rfl⟩

theorem execWrDataB_completes {v : Byte} {s t : State} (h : execWrDataB v s = .next t) : t.Completed := by
  rcases execWrDataB_cases h with ⟨-, hr⟩ | ⟨-, s', e, -, hr⟩ <;> cases hr <;> exact ⟨_, _, rfl⟩

theorem execWrCtrl_completes {v : Word} {s t : State} (h : execWrCtrl v s = .next t) : t.Completed := by
  rcases execWrCtrl_cases h with ⟨-, hr⟩ | ⟨-, hr⟩ <;> cases hr <;> exact ⟨_, _, rfl⟩

/-- In seed mode a wide write stores the seed and completes; in accumulate mode it is rejected (R87, R88). -/
theorem writeWideData_rejects_or_completes {d : BusData} {s t : State} (h : writeWideData d s = .next t) :
    (s.ctrl.was = false ∧ t = s.raise (.unsupportedAccessWidth Config.dataOffset d.size)) ∨
    (s.ctrl.was = true ∧ t.Completed) := by
  rcases writeWideData_cases h with ⟨hw, hr⟩ | ⟨hw, hr⟩ <;> cases hr
  · exact .inr ⟨hw, _, _, rfl⟩
  · exact .inl ⟨hw, rfl⟩

/-- An operation that answers a next state is either a wide DATA write in accumulate mode, and rejected, or no such
write, and completed. -/
theorem exec_rejects_or_completes {i : Instr} {s t : State} (h : exec i s = .next t) :
    (s.ctrl.was = false ∧ isWideDataWrite i = true ∧
      ∃ size, t = s.raise (.unsupportedAccessWidth Config.dataOffset size)) ∨
    (¬(s.ctrl.was = false ∧ isWideDataWrite i = true) ∧ t.Completed) := by
  cases i with
  | wrDataH v | wrDataW v =>
    rcases writeWideData_rejects_or_completes h with ⟨hw, ht⟩ | ⟨hw, ht⟩
    · exact .inl ⟨hw, rfl, _, ht⟩
    · exact .inr ⟨by simp [hw], ht⟩
  | rdDataB | rdDataH | rdDataW => exact .inr ⟨by simp [isWideDataWrite], readData_completes h⟩
  | wrDataB v => exact .inr ⟨by simp [isWideDataWrite], execWrDataB_completes h⟩
  | wrCtrl v => exact .inr ⟨by simp [isWideDataWrite], execWrCtrl_completes h⟩
  | rdPoly | wrPoly v | rdCtrl | rdUnmapped offset size | wrUnmapped offset d =>
    cases h
    exact .inr ⟨by simp [isWideDataWrite], _, _, rfl⟩
  | rdPolyB | rdPolyH | wrPolyB v | wrPolyH v | rdCtrlB | rdCtrlH | wrCtrlB v | wrCtrlH v => cases h

/-- Settles O48: a rejected operation meets both sides, a completed one neither. -/
theorem unsupportedAccessWidthRaisedExactly : Obligations.UnsupportedAccessWidthRaisedExactly := by
  intro s t i h
  rw [← isWideDataWrite_eq_true_iff]
  rcases exec_rejects_or_completes h with ⟨hw, hi, size, rfl⟩ | ⟨hn, ht⟩
  · exact ⟨fun _ => ⟨hw, hi⟩, fun _ => ⟨_, size, none, none, rfl⟩⟩
  · refine ⟨?_, fun hwide => absurd hwide hn⟩
    rintro ⟨offset, size, rd, ev, hr⟩
    exact absurd hr (ht.response_ne_fault _ rd ev)

end Sys2Proof.Machine
end

section
/-! The decoder and the encoder (R35, R45 to R47, R56): each is the other's inverse, as transactions and as table words,
and the descriptor selects the first row of the operation map that matches it. -/
namespace Sys2Proof

/-! ### Bus values -/

@[simp] theorem BusData.ofWord_size_zext (d : BusData) : BusData.ofWord d.size d.zext = d := by
  cases d <;> simp [BusData.size, BusData.zext, BusData.ofWord]

@[simp] theorem BusData.size_ofWord (z : Size) (v : Word) : (BusData.ofWord z v).size = z := by
  cases z <;> rfl

/-! ### The decoder, one equation for each branch (R115) -/

theorem decode_reserved {t : Transaction} (hz : t.sz = 3) : decode t = .error .reservedSizeCode := by
  simp [decode, hz, Size.ofCode]

section
variable {t : Transaction} {z : Size} (hz : t.sz = z.code)
include hz

theorem decode_data (ho : t.offset = 0) : decode t = .ok (decodeData t.rw z t.wdata) := by
  simp [decode, hz, ho]

theorem decode_poly (ho : t.offset = 4) : decode t = .ok (decodePoly t.rw z t.wdata) := by
  simp [decode, hz, ho]

theorem decode_ctrl (ho : t.offset = 8) : decode t = .ok (decodeCtrl t.rw z t.wdata) := by
  simp [decode, hz, ho]

theorem decode_unmapped (ho : isMapped t.offset = false) : decode t = .ok (decodeUnmapped t.rw t.offset z t.wdata) := by
  simp only [isMapped, Bool.or_eq_false_iff, beq_eq_false_iff_ne] at ho
  simp [decode, hz, ho]

end

theorem isMapped_cases (offset : Nat) : offset = 0 ∨ offset = 4 ∨ offset = 8 ∨ isMapped offset = false := by
  by_cases h0 : offset = 0
  · exact .inl h0
  by_cases h4 : offset = 4
  · exact .inr (.inl h4)
  by_cases h8 : offset = 8
  · exact .inr (.inr (.inl h8))
  · simp [isMapped, h0, h4, h8]

/-- All that the decoder can answer: the reserved size code, or an operation of one of the four kinds of offset. -/
theorem decode_cases {t : Transaction} {r : Except DecodeError Instr} (h : decode t = r) :
    (t.sz = 3 ∧ r = .error .reservedSizeCode) ∨
    ∃ z, t.sz = z.code ∧
      ((t.offset = 0 ∧ r = .ok (decodeData t.rw z t.wdata)) ∨ (t.offset = 4 ∧ r = .ok (decodePoly t.rw z t.wdata)) ∨
        (t.offset = 8 ∧ r = .ok (decodeCtrl t.rw z t.wdata)) ∨
        (isMapped t.offset = false ∧ r = .ok (decodeUnmapped t.rw t.offset z t.wdata))) := by
  subst h
  rcases Machine.ofCode_cases t.sz with ⟨z, -, hz⟩ | ⟨-, hz⟩
  · refine .inr ⟨z, hz, ?_⟩
    rcases isMapped_cases t.offset with ho | ho | ho | ho
    · exact .inl ⟨ho, decode_data hz ho⟩
    · exact .inr (.inl ⟨ho, decode_poly hz ho⟩)
    · exact .inr (.inr (.inl ⟨ho, decode_ctrl hz ho⟩))
    · exact .inr (.inr (.inr ⟨ho, decode_unmapped hz ho⟩))
  · exact .inl ⟨hz, decode_reserved hz⟩

/-! ### Decoding what the encoder gives -/

/-- R35, R47: offset and size code select the operation's own row, and its data fit the size. -/
theorem decode_encode {i : Instr} (hi : i.wellFormed = true) : decode (encode i) = .ok i := by
  cases i with
  | rdDataB | rdDataH | rdDataW | rdPoly | rdCtrl | rdPolyB | rdPolyH | rdCtrlB | rdCtrlH => rfl
  | wrDataB v | wrDataH v | wrDataW v | wrPoly v | wrCtrl v | wrPolyB v | wrPolyH v | wrCtrlB v | wrCtrlH v =>
    simp [encode, Transaction.writeOf, BusData.size, BusData.zext, decode, decodeData, decodePoly, decodeCtrl]
  | rdUnmapped offset z =>
    have ho : isMapped offset = false := by simpa [Instr.wellFormed] using hi
    exact decode_unmapped (t := .readOf offset z) rfl ho
  | wrUnmapped offset d =>
    have ho : isMapped offset = false := by simpa [Instr.wellFormed] using hi
    rw [encode, decode_unmapped (t := .writeOf offset d) rfl ho]
    simp [Transaction.writeOf, decodeUnmapped]

/-! ### Descriptors and table words (R45; log 9) -/

/-- The three fields of a descriptor stand side by side. -/
theorem descriptorBits_fields (b : BitVec 1) (sz : BitVec 2) (o : BitVec 5) :
    (b ++ sz ++ o).getLsbD 7 = b.getLsbD 0 ∧ (b ++ sz ++ o).extractLsb' 5 2 = sz ∧
      (b ++ sz ++ o).extractLsb' 0 5 = o := by
  refine ⟨?_, ?_, BitVec.extractLsb'_append_eq_right⟩
  · rw [BitVec.getLsbD_append, BitVec.getLsbD_append]
    rfl
  · rw [BitVec.extractLsb'_append_eq_of_le (by decide)]
    exact BitVec.extractLsb'_append_eq_right

/-- A transaction whose offset has five bits is read back from its descriptor. -/
theorem ofDescriptor_descriptor {t : Transaction} (ho : t.offset < 0x20) :
    Transaction.ofDescriptor t.descriptor t.wdata = t := by
  obtain ⟨rw, sz, offset, wdata⟩ := t
  have hoff : (BitVec.ofNat 5 offset).toNat = offset := Nat.mod_eq_of_lt ho
  have hfields := fun b => descriptorBits_fields b sz (BitVec.ofNat 5 offset)
  cases rw <;> simp only [Transaction.ofDescriptor, Transaction.descriptor, hfields, hoff] <;> rfl

theorem toTableWord_of_lt {t : Transaction} (ho : t.offset < 0x20) :
    t.toTableWord = some (t.wdata.toNat * 256 + t.descriptor.toNat) := if_pos ho

theorem ofTableWord_append (d : Byte) (wd : Word) :
    Transaction.ofTableWord (wd.toNat * 256 + d.toNat) = .ofDescriptor d wd := by
  have hd : BitVec.ofNat 8 (wd.toNat * 256 + d.toNat) = d := by
    refine BitVec.eq_of_toNat_eq ?_
    rw [BitVec.toNat_ofNat]
    omega
  have hwd : (wd.toNat * 256 + d.toNat) / 256 = wd.toNat := by omega
  rw [Transaction.ofTableWord, hd, hwd, BitVec.ofNat_toNat, BitVec.setWidth_eq]

theorem decodeTableWord_of_lt {nbits w : Nat} {i : Instr} (hw : w < 2 ^ nbits)
    (hi : decode (.ofTableWord w) = .ok i) : decodeTableWord nbits w = some i := by
  rw [decodeTableWord, Nat.mod_eq_of_lt hw, hi]

/-- Having a descriptor is, row by row, being presented at an offset of five bits. -/
theorem encode_offset_lt {i : Instr} (hi : i.hasDescriptor = true) : (encode i).offset < 0x20 := by
  cases i <;> exact of_decide_eq_true hi

/-- The table word of an operation has 40 bits and decodes to it. -/
theorem decodeTableWord_encode {i : Instr} (hi : i.wellFormed = true) (hd : i.hasDescriptor = true) :
    ∃ w, encodeTableWord i = some w ∧ w < 2 ^ 40 ∧ decodeTableWord 40 w = some i := by
  have ho := encode_offset_lt hd
  have hlt : (encode i).wdata.toNat * 256 + (encode i).descriptor.toNat < 2 ^ 40 := by omega
  refine ⟨_, toTableWord_of_lt ho, hlt, decodeTableWord_of_lt hlt ?_⟩
  rw [ofTableWord_append, ofDescriptor_descriptor ho, decode_encode hi]

/-- Settles O3: decoding inverts encoding row by row, and a table word keeps all of a transaction whose offset has
five bits. -/
theorem decodeEncodeRoundTrip : Obligations.DecodeEncodeRoundTrip := fun _ hi =>
  ⟨decode_encode hi, decodeTableWord_encode hi⟩

/-! ### Encoding what the decoder gives -/

/-- What the encoder presents for the operation of each kind of offset. -/
theorem encode_decoded (rw : Direction) (z : Size) (wd : Word) :
    encode (decodeData rw z wd) = Transaction.canonical ⟨rw, z.code, 0, wd⟩ ∧
      encode (decodePoly rw z wd) = Transaction.canonical ⟨rw, z.code, 4, wd⟩ ∧
      encode (decodeCtrl rw z wd) = Transaction.canonical ⟨rw, z.code, 8, wd⟩ := by
  cases rw <;> cases z <;> exact ⟨rfl, rfl, rfl⟩

theorem encode_decodeUnmapped (rw : Direction) (offset : Nat) (z : Size) (wd : Word) :
    encode (decodeUnmapped rw offset z wd) = Transaction.canonical ⟨rw, z.code, offset, wd⟩ := by
  cases rw <;> cases z <;> rfl

theorem wellFormed_decoded (rw : Direction) (z : Size) (wd : Word) :
    (decodeData rw z wd).wellFormed = true ∧ (decodePoly rw z wd).wellFormed = true ∧
      (decodeCtrl rw z wd).wellFormed = true := by
  cases rw <;> cases z <;> exact ⟨rfl, rfl, rfl⟩

theorem wellFormed_decodeUnmapped {offset : Nat} (ho : isMapped offset = false) (rw : Direction) (z : Size) (wd : Word) :
    (decodeUnmapped rw offset z wd).wellFormed = true := by
  cases rw <;> simp [decodeUnmapped, Instr.wellFormed, ho]

theorem wellFormed_of_decode {t : Transaction} {i : Instr} (h : decode t = .ok i) : i.wellFormed = true := by
  rcases decode_cases h with ⟨-, hr⟩ | ⟨z, -, hcases⟩
  · cases hr
  obtain ⟨hdata, hpoly, hctrl⟩ := wellFormed_decoded t.rw z t.wdata
  rcases hcases with ⟨-, hr⟩ | ⟨-, hr⟩ | ⟨-, hr⟩ | ⟨ho, hr⟩ <;> cases hr
  · exact hdata
  · exact hpoly
  · exact hctrl
  · exact wellFormed_decodeUnmapped ho t.rw z t.wdata

theorem encode_of_decode {t : Transaction} {i : Instr} (h : decode t = .ok i) : encode i = t.canonical := by
  obtain ⟨rw, sz, offset, wd⟩ := t
  rcases decode_cases h with ⟨-, hr⟩ | ⟨z, rfl, hcases⟩
  · cases hr
  obtain ⟨hdata, hpoly, hctrl⟩ := encode_decoded rw z wd
  rcases hcases with ⟨rfl, hr⟩ | ⟨rfl, hr⟩ | ⟨rfl, hr⟩ | ⟨-, hr⟩ <;> cases hr
  · exact hdata
  · exact hpoly
  · exact hctrl
  · exact encode_decodeUnmapped rw offset z wd

/-- Settles O4, by the cases of the decoder. -/
theorem decodedOperationsEncodeBack : Obligations.DecodedOperationsEncodeBack := fun _ _ h =>
  ⟨wellFormed_of_decode h, encode_of_decode h⟩

/-! ### The operation map (R47) -/

/-- Which row an operation belongs to does not depend on the write data. -/
theorem decode_mnemonic_wdata (t : Transaction) (wd : Word) :
    (decode { t with wdata := wd }).map Instr.mnemonic = (decode t).map Instr.mnemonic := by
  obtain ⟨rw, sz, offset, wd'⟩ := t
  unfold decode
  cases Size.ofCode sz with
  | none => rfl
  | some z =>
    dsimp only
    split_ifs <;> cases rw <;> cases z <;> rfl

/-- The operation map against the decoder, for each of the 256 descriptors. -/
theorem operationMapLookup_eq_mnemonic : ∀ d : Byte, d.extractLsb' 5 2 ≠ 3 →
    ((decode (.ofDescriptor d 0)).map Instr.mnemonic).toOption = operationMapLookup d := by
  decide

/-- Settles O5: the write data play no part in the row, and without them the map is a finite table. -/
theorem descriptorSelectsFirstMatchingRow : Obligations.DescriptorSelectsFirstMatchingRow := by
  intro d wd
  refine ⟨fun hsz => ?_, fun hsz => decode_reserved hsz⟩
  have hrow : ((decode (.ofDescriptor d wd)).map Instr.mnemonic).toOption = operationMapLookup d := by
    rw [← operationMapLookup_eq_mnemonic d hsz]
    exact congrArg Except.toOption (decode_mnemonic_wdata (.ofDescriptor d 0) wd)
  rcases decode_cases (t := .ofDescriptor d wd) rfl with ⟨hz, -⟩ | ⟨z, -, hcases⟩
  · exact absurd hz hsz
  · have hok : ∃ i, decode (.ofDescriptor d wd) = .ok i := by
      rcases hcases with ⟨-, hr⟩ | ⟨-, hr⟩ | ⟨-, hr⟩ | ⟨-, hr⟩ <;> exact ⟨_, hr⟩
    obtain ⟨i, hi⟩ := hok
    rw [hi] at hrow
    exact ⟨i, hi, hrow.symm⟩

/-- Settles O1: each word evaluates. -/
theorem wordsDecodeAsTheMapWrites : Obligations.WordsDecodeAsTheMapWrites := by
  unfold Obligations.WordsDecodeAsTheMapWrites
  decide

end Sys2Proof
end

section
/-! The byte step bit by bit (R64, R67), its zero-polynomial corner, and the table-driven update (R70). The shifts are
linear over XOR, so what leaves at the top and what stays below can be shifted apart. -/
namespace Sys2Proof.Machine

/-! ### The shifts (R64) -/

theorem shiftSteps_eq_iterate (c : CrcConfig) (n : Nat) (a : Word) : shiftSteps c n a = (shiftStep c)^[n] a := by
  induction n generalizing a with
  | zero => rfl
  | succ n ih => exact ih (shiftStep c a)

/-- A masked word has no bit from the width upward. -/
theorem getLsbD_of_le_mask {v : Word} {w i : Nat} (hw : w ≤ 32) (hv : v ≤ mask w) (hi : w ≤ i) : v.getLsbD i = false :=
  getLsbD_eq_false_of_toNat_lt ((le_mask_iff_toNat_lt hw).1 hv) hi

theorem getLsbD_shiftStep {c : CrcConfig} (hc : c.wf) (a : Word) (i : Nat) :
    (shiftStep c a).getLsbD i =
      (decide (i < c.width) &&
        ((decide (0 < i) && a.getLsbD (i - 1)) ^^ (a.getLsbD (c.width - 1) && c.polynomial.getLsbD i))) := by
  obtain ⟨hmem, hpoly, -, -⟩ := hc
  have hw : c.width ≤ 32 := le_32_of_mem_widths hmem
  have hshifted : ((a <<< 1) &&& mask c.width).getLsbD i =
      (decide (i < c.width) && (decide (0 < i) && a.getLsbD (i - 1))) := by
    rw [BitVec.getLsbD_and, BitVec.getLsbD_shiftLeft, getLsbD_mask]
    by_cases hi : i < c.width
    · have hi32 : i < 32 := by omega
      simp [hi, hi32, Nat.pos_iff_ne_zero]
    · simp [hi]
  unfold shiftStep
  dsimp only
  by_cases hi : i < c.width
  · split
    · next htop => rw [BitVec.getLsbD_xor, hshifted]; simp [hi, htop]
    · next htop => rw [hshifted]; simp [hi, htop]
  · have hp : c.polynomial.getLsbD i = false := getLsbD_of_le_mask hw hpoly (Nat.le_of_not_lt hi)
    split
    · rw [BitVec.getLsbD_xor, hshifted, hp]; simp [hi]
    · rw [hshifted]; simp [hi]

/-! ### The byte enters at the top (R64, R67) -/

theorem getLsbD_inputByte (c : CrcConfig) (b : Byte) {j : Nat} (hj : j < 8) :
    (inputByte c b).getLsbD j = if c.reflectInput then b.getLsbD (7 - j) else b.getLsbD j := by
  unfold inputByte
  split
  · rw [rev8, getLsbD_revBits b 8 j (Nat.le_refl 8)]
    simp [hj]
  · rfl

theorem getLsbD_mixByte {c : CrcConfig} (hc : c.wf) (acc : Word) (b : Byte) {i : Nat} (hi : i < c.width) :
    (mixByte c acc b).getLsbD i =
      (acc.getLsbD i ^^ (decide (c.width - 8 ≤ i) && (inputByte c b).getLsbD (i - (c.width - 8)))) := by
  have hw : c.width ≤ 32 := le_32_of_mem_widths hc.1
  have hi32 : i < 32 := by omega
  rw [mixByte, BitVec.getLsbD_xor, BitVec.getLsbD_shiftLeft, BitVec.getLsbD_setWidth]
  have hj32 : i - (c.width - 8) < 32 := by omega
  by_cases htop : c.width - 8 ≤ i
  · simp [hi32, hj32, htop, Nat.not_lt.2 htop]
  · simp [htop, Nat.not_le.1 htop]

theorem eight_le_of_mem_widths {w : Nat} (hw : w ∈ Config.widths) : 8 ≤ w := by
  rcases (mem_widths w).1 hw with h | h <;> omega

/-- Settles O10: the byte step is the iterated shift of the mixed accumulator, each of the two known bit by bit. -/
theorem byteStepShiftsAndXorsBitByBit : Obligations.ByteStepShiftsAndXorsBitByBit := by
  refine ⟨fun e b => ?_, fun e b i hc hi => ?_, fun c a i hc => getLsbD_shiftStep hc a i⟩
  · rw [Engine.updateByte, shiftSteps_eq_iterate]
  · have hw8 : 8 ≤ e.config.width := eight_le_of_mem_widths hc.1
    rw [getLsbD_mixByte hc e.acc b hi]
    by_cases htop : e.config.width - 8 ≤ i
    · have hflip : 7 - (i - (e.config.width - 8)) = e.config.width - 1 - i := by omega
      rw [getLsbD_inputByte _ _ (by omega), hflip]
    · simp [htop]

/-! ### The zero polynomial (R64) -/

/-- Shifting on after a mask loses nothing more than the mask at the end does. -/
theorem shiftLeft_and_mask_shiftLeft_and_mask (a : Word) (w m n : Nat) :
    (((a <<< m) &&& mask w) <<< n) &&& mask w = (a <<< (m + n)) &&& mask w := by
  refine BitVec.eq_of_getLsbD_eq fun i hi => ?_
  simp only [BitVec.getLsbD_and, BitVec.getLsbD_shiftLeft, getLsbD_mask]
  by_cases hw : i < w
  · by_cases hn : i < n
    · have : i < m + n := by omega
      simp [hn, this]
    · have hm : i - n < m ↔ i < m + n := by omega
      have h32 : i - n < 32 := by omega
      have hiw : i - n < w := by omega
      have hsub : i - n - m = i - (m + n) := by omega
      simp [hi, hw, hn, hm, h32, hiw, hsub]
  · simp [hw]

theorem shiftSteps_of_polynomial_zero {c : CrcConfig} (hp : c.polynomial = 0) {a : Word} (ha : a &&& mask c.width = a)
    (n : Nat) : shiftSteps c n a = (a <<< n) &&& mask c.width := by
  have hstep : ∀ x, shiftStep c x = (x <<< 1) &&& mask c.width := fun x => by simp [shiftStep, hp]
  induction n generalizing a with
  | zero => simp [shiftSteps, ha]
  | succ n ih =>
    rw [shiftSteps, hstep, ih (by rw [BitVec.and_assoc, BitVec.and_self]), shiftLeft_and_mask_shiftLeft_and_mask,
      Nat.add_comm 1 n]

/-- The byte stands in the top eight bits, so a shift by eight moves it out. -/
theorem mixByte_shiftLeft_8 {c : CrcConfig} (hc : c.wf) (acc : Word) (b : Byte) :
    (mixByte c acc b <<< 8) &&& mask c.width = (acc <<< 8) &&& mask c.width := by
  refine BitVec.eq_of_getLsbD_eq fun i hi => ?_
  simp only [BitVec.getLsbD_and, BitVec.getLsbD_shiftLeft, getLsbD_mask]
  by_cases hiw : i < c.width
  · by_cases h8 : i < 8
    · simp [h8]
    · have hlow : ¬ c.width - 8 ≤ i - 8 := by have := eight_le_of_mem_widths hc.1; omega
      rw [getLsbD_mixByte hc acc b (by omega)]
      simp [hlow]
  · simp [hiw]

theorem mixByte_le_mask {c : CrcConfig} (hc : c.wf) {acc : Word} (hacc : acc ≤ mask c.width) (b : Byte) :
    mixByte c acc b ≤ mask c.width := by
  have hw : c.width ≤ 32 := le_32_of_mem_widths hc.1
  have hw8 : 8 ≤ c.width := eight_le_of_mem_widths hc.1
  refine xor_le_mask hw hacc ((le_mask_iff_toNat_lt hw).2 ?_)
  have hb : (inputByte c b).toNat < 2 ^ 8 := (inputByte c b).isLt
  have hpow : 2 ^ c.width = 2 ^ 8 * 2 ^ (c.width - 8) := by rw [← Nat.pow_add]; congr 1; omega
  rw [BitVec.toNat_shiftLeft, BitVec.toNat_setWidth, Nat.shiftLeft_eq]
  calc _ ≤ (inputByte c b).toNat % 2 ^ 32 * 2 ^ (c.width - 8) := Nat.mod_le _ _
    _ ≤ (inputByte c b).toNat * 2 ^ (c.width - 8) := Nat.mul_le_mul_right _ (Nat.mod_le _ _)
    _ < 2 ^ c.width := by rw [hpow]; exact Nat.mul_lt_mul_of_pos_right hb (Nat.two_pow_pos _)

/-- Settles O11: without a polynomial the eight shifts are one shift by eight, which moves the byte out. -/
theorem zeroPolynomialOnlyShifts : Obligations.ZeroPolynomialOnlyShifts := by
  rintro e b ⟨hc, hacc⟩ hp
  have hmix := and_mask_of_le_mask (le_32_of_mem_widths hc.1) (mixByte_le_mask hc hacc b)
  rw [Engine.updateByte, shiftSteps_of_polynomial_zero hp hmix]
  exact mixByte_shiftLeft_8 hc e.acc b

/-! ### Everything stays masked (R59, R18, R20) -/

/-- The engine a good config starts with is good, whether constructed or reset (R62, R63). -/
theorem CrcConfig.wf.engine_at_seed {c : CrcConfig} (hc : c.wf) : Engine.wf { config := c, acc := c.seed } := by
  obtain ⟨hw, hpoly, hseed, hxor⟩ := hc
  exact ⟨⟨hw, hpoly, hseed, hxor⟩, hseed⟩

/-- Settles O13 by the masking lemmas of the invariant. -/
theorem engineOperationsStayMasked : Obligations.EngineOperationsStayMasked := by
  refine ⟨fun e xs he => ⟨he.update xs, he.1.engine_at_seed, e.value_le_mask⟩, fun c e hc h => ?_, deriveConfig_wf⟩
  obtain ⟨-, rfl⟩ := (construct_eq_ok c e).1 h
  exact hc.engine_at_seed

/-! ### The table-driven update (R70) -/

theorem shiftStep_xor {c : CrcConfig} (hc : c.wf) (a b : Word) :
    shiftStep c (a ^^^ b) = shiftStep c a ^^^ shiftStep c b := by
  refine BitVec.eq_of_getLsbD_eq fun i _ => ?_
  simp only [BitVec.getLsbD_xor, getLsbD_shiftStep hc, Bool.and_xor_distrib_left, Bool.and_xor_distrib_right]
  simp only [Bool.xor_assoc, Bool.xor_left_comm]

/-- Over XOR the shifts are linear. -/
theorem shiftSteps_xor {c : CrcConfig} (hc : c.wf) (n : Nat) (a b : Word) :
    shiftSteps c n (a ^^^ b) = shiftSteps c n a ^^^ shiftSteps c n b := by
  induction n generalizing a b with
  | zero => rfl
  | succ n ih => rw [shiftSteps, shiftStep_xor hc, ih]; rfl

/-- With the top bit 0 a shift is only a shift. -/
theorem shiftStep_of_lt {c : CrcConfig} (hw : c.width ≤ 32) (hw0 : 0 < c.width) {a : Word}
    (ha : a.toNat < 2 ^ (c.width - 1)) : shiftStep c a = a <<< 1 ∧ (a <<< 1).toNat = 2 * a.toNat := by
  have hpow : 2 ^ c.width = 2 * 2 ^ (c.width - 1) := by rw [← Nat.pow_succ']; congr 1; omega
  have h32 : 2 ^ c.width ≤ 2 ^ 32 := Nat.pow_le_pow_right (by decide) hw
  have hnat : (a <<< 1).toNat = 2 * a.toNat := by
    rw [BitVec.toNat_shiftLeft, Nat.shiftLeft_eq, Nat.mod_eq_of_lt (by omega)]
    omega
  have htop : a.getLsbD (c.width - 1) = false := getLsbD_eq_false_of_toNat_lt ha (Nat.le_refl _)
  have hmask : a <<< 1 ≤ mask c.width := (le_mask_iff_toNat_lt hw).2 (by omega)
  exact ⟨by simp [shiftStep, htop, and_mask_of_le_mask hw hmask], hnat⟩

/-- As long as no bit reaches the top, shifting is only shifting. -/
theorem shiftSteps_of_lt {c : CrcConfig} (hw : c.width ≤ 32) {n : Nat} {a : Word} (hn : n ≤ c.width)
    (ha : a.toNat < 2 ^ (c.width - n)) : shiftSteps c n a = a <<< n := by
  induction n generalizing a with
  | zero => simp [shiftSteps]
  | succ n ih =>
    have hpow : 2 ^ (c.width - n) = 2 * 2 ^ (c.width - (n + 1)) := by rw [← Nat.pow_succ']; congr 1; omega
    have hle : 2 ^ (c.width - (n + 1)) ≤ 2 ^ (c.width - 1) := Nat.pow_le_pow_right (by decide) (by omega)
    obtain ⟨hstep, hnat⟩ := shiftStep_of_lt hw (by omega) (ha.trans_le hle)
    rw [shiftSteps, hstep, ih (by omega) (by omega), ← BitVec.shiftLeft_add, Nat.add_comm 1 n]

/-- What the table step looks up and what it keeps make up the word. -/
theorem top_xor_low (a : Word) (k : Nat) : (BitVec.ofNat 32 (a.toNat / 2 ^ k) <<< k) ^^^ (a &&& mask k) = a := by
  refine BitVec.eq_of_getLsbD_eq fun i hi => ?_
  rw [BitVec.getLsbD_xor, BitVec.getLsbD_shiftLeft, BitVec.getLsbD_ofNat, BitVec.getLsbD_and, getLsbD_mask,
    Nat.testBit_div_two_pow]
  by_cases hik : i < k
  · simp [hi, hik]
  · have hsub : i - k + k = i := by omega
    have hlt : i - k < 32 := by omega
    rw [hsub, BitVec.testBit_toNat]
    simp [hi, hik, hlt]

/-- The part below the top byte is what a shift by eight leaves inside the width. -/
theorem low_shiftLeft_8 (a : Word) {w : Nat} (hw : 8 ≤ w) :
    (a &&& mask (w - 8)) <<< 8 = (a <<< 8) &&& mask w := by
  refine BitVec.eq_of_getLsbD_eq fun i hi => ?_
  simp only [BitVec.getLsbD_and, BitVec.getLsbD_shiftLeft, getLsbD_mask]
  by_cases h8 : i < 8
  · simp [h8]
  · have hlt : i - 8 < 32 := by omega
    have hiff : i - 8 < w - 8 ↔ i < w := by omega
    simp [hi, h8, hlt, hiff]

theorem crcTable_getD (c : CrcConfig) {k : Nat} (hk : k < 256) : (crcTable c).getD k 0 = tableEntry c k := by
  simp [crcTable, hk]

/-- R70 for one byte: the top byte's shifts are the table entry, and the rest only moves up. -/
theorem updateByteByTable_eq {e : Engine} (he : e.wf) (b : Byte) : e.updateByteByTable b = e.updateByte b := by
  obtain ⟨hc, hacc⟩ := he
  have hw : e.config.width ≤ 32 := le_32_of_mem_widths hc.1
  have hw8 : 8 ≤ e.config.width := eight_le_of_mem_widths hc.1
  unfold Engine.updateByteByTable Engine.updateByte
  dsimp only
  generalize hm : mixByte e.config e.acc b = a
  have ha : a.toNat < 2 ^ e.config.width := (le_mask_iff_toNat_lt hw).1 (hm ▸ mixByte_le_mask hc hacc b)
  have htop : a.toNat / 2 ^ (e.config.width - 8) < 256 := by
    rw [Nat.div_lt_iff_lt_mul (Nat.two_pow_pos _), show 256 = 2 ^ 8 from rfl, ← Nat.pow_add]
    exact ha.trans_le (Nat.pow_le_pow_right (by decide) (by omega))
  have hlow : (a &&& mask (e.config.width - 8)).toNat < 2 ^ (e.config.width - 8) :=
    (le_mask_iff_toNat_lt (by omega)).1 (and_mask_le _ _)
  have hsteps : shiftSteps e.config 8 a =
      tableEntry e.config (a.toNat / 2 ^ (e.config.width - 8)) ^^^ ((a <<< 8) &&& mask e.config.width) := by
    conv => lhs; rw [← top_xor_low a (e.config.width - 8)]
    rw [shiftSteps_xor hc, shiftSteps_of_lt hw hw8 hlow, low_shiftLeft_8 a hw8, tableEntry]
  rw [crcTable_getD _ htop, hsteps, BitVec.xor_comm]

/-- Settles O17, byte by byte along the message. -/
theorem tableDrivenUpdateAgrees : Obligations.TableDrivenUpdateAgrees := by
  intro e xs he
  induction xs generalizing e with
  | nil => rfl
  | cons b bs ih =>
    show (e.updateByteByTable b).updateByTable bs = (e.updateByte b).update bs
    rw [updateByteByTable_eq he, ih _ (he.updateByte b)]

end Sys2Proof.Machine
end

section
/-! The derived config (R50 to R52, R74): what it reads from the registers, and what it ignores (R84, R132). -/
namespace Sys2Proof.Machine

theorem toNat_and_mask (v : Word) {w : Nat} (hw : w ≤ 32) : (v &&& mask w).toNat = v.toNat % 2 ^ w := by
  have hpos : 0 < 2 ^ w := Nat.two_pow_pos w
  have hpow : 2 ^ w ≤ 2 ^ 32 := Nat.pow_le_pow_right (by decide) hw
  rw [mask, BitVec.toNat_and, BitVec.toNat_ofNat, Nat.mod_eq_of_lt (by omega), Nat.and_two_pow_sub_one_eq_mod]

theorem reflects_ofBits_eq_true_iff : ∀ m : BitVec 2, (ReflectionMode.ofBits m).reflects = true ↔ m = 2 ∨ m = 3 := by
  decide

/-- Whether a mode reflects is its high bit (R50). -/
theorem reflects_ofBits : ∀ m : BitVec 2, (ReflectionMode.ofBits m).reflects = m.getLsbD 1 := by
  decide

theorem getLsbD_selectedXor (c : Ctrl) (i : Nat) :
    (selectedXor c).getLsbD i = (c.fxor && decide (i < selectedWidth c)) := by
  have hw : selectedWidth c ≤ 32 := le_32_of_mem_widths (selectedWidth_mem c)
  unfold selectedXor
  split
  · next hx =>
    rw [getLsbD_mask, hx]
    by_cases hi : i < selectedWidth c
    · have hi32 : i < 32 := by omega
      simp [hi, hi32]
    · simp [hi]
  · next hx => simp [hx]

/-- Settles O18, field by field. -/
theorem derivedConfigMasksAndMaps : Obligations.DerivedConfigMasksAndMaps := by
  intro p c sd
  have hw : selectedWidth c ≤ 32 := le_32_of_mem_widths (selectedWidth_mem c)
  exact ⟨rfl, toNat_and_mask p hw, toNat_and_mask sd hw, reflects_ofBits_eq_true_iff c.tot,
    reflects_ofBits_eq_true_iff c.totr, getLsbD_selectedXor c, fun _ => rfl⟩

/-- A 16-bit config reads the low halves only. -/
theorem and_mask_16_congr {v v' : Word} (h : v.setWidth 16 = v'.setWidth 16) : v &&& mask 16 = v' &&& mask 16 := by
  refine BitVec.eq_of_toNat_eq ?_
  have hnat := congrArg BitVec.toNat h
  rw [BitVec.toNat_setWidth, BitVec.toNat_setWidth] at hnat
  rw [toNat_and_mask v (by decide), toNat_and_mask v' (by decide), hnat]

theorem and_mask_32 (v : Word) : v &&& mask 32 = v :=
  and_mask_of_le_mask (Nat.le_refl 32) ((le_mask_iff_toNat_lt (Nat.le_refl 32)).2 v.isLt)

/-- Settles O19: the mask cuts the upper halves at 16 bits and nothing at 32, and a mode is read by its high bit. -/
theorem inertWritesKeepTheCandidate : Obligations.InertWritesKeepTheCandidate := by
  refine ⟨fun p p' sd sd' c htcrc hp hsd => ?_, fun p sd c m n hm hn => ?_, fun p p' sd sd' c htcrc h => ?_⟩
  · have hw : selectedWidth c = 16 := by simp [selectedWidth, htcrc]
    simp [deriveConfig, hw, and_mask_16_congr hp, and_mask_16_congr hsd]
  · simp only [deriveConfig, reflects_ofBits, hm, hn]
    rfl
  · have hw : selectedWidth c = 32 := by simp [selectedWidth, htcrc]
    obtain ⟨hp, hsd⟩ : p &&& mask 32 = p' &&& mask 32 ∧ sd &&& mask 32 = sd' &&& mask 32 := by
      simpa [deriveConfig, hw] using h
    exact ⟨by simpa only [and_mask_32] using hp, by simpa only [and_mask_32] using hsd⟩

end Sys2Proof.Machine
end

section
/-! What each operation answers, as one equation each, and the effects an operation can have, said once: every frame and
whole-machine rule below goes by the cases of `Effect`. -/
namespace Sys2Proof.Machine

/-! ### The state lazy reconciliation leaves (R76) -/

/-- The engine a DATA access works with: the live one of a clean state, else the fresh one. -/
def State.readyEngine (s : State) : Engine := (if s.configDirty then none else s.engine).getD s.freshEngine

/-- The state a DATA access works in. -/
def State.ready (s : State) : State :=
  { s with engine := some s.readyEngine, configDirty := false, fed := s.fed && !s.isStale }

theorem isStale_eq_true_iff (s : State) : s.isStale = true ↔ s.configDirty = true ∨ s.engine = none := by
  simp [State.isStale]

theorem readyEngine_of_stale {s : State} (h : s.isStale = true) : s.readyEngine = s.freshEngine := by
  rcases (isStale_eq_true_iff s).1 h with hd | he
  · simp [State.readyEngine, hd]
  · simp [State.readyEngine, he]

theorem readyEngine_of_clean {s : State} {e : Engine} (hd : s.configDirty = false) (he : s.engine = some e) :
    s.readyEngine = e := by
  simp [State.readyEngine, hd, he]

theorem ready_of_stale {s : State} (h : s.isStale = true) :
    s.ready = { s with engine := some s.freshEngine, configDirty := false, fed := false } := by
  simp [State.ready, readyEngine_of_stale h, h]

theorem ready_of_clean {s : State} {e : Engine} (hd : s.configDirty = false) (he : s.engine = some e) :
    s.ready = s := by
  obtain ⟨poly, ctrl, seed, dirty, engine, fed, inbox, response, log, faults⟩ := s
  cases hd; cases he
  simp [State.ready, State.readyEngine, State.isStale]

/-- R76 as an equation. -/
theorem lazyReconcile_eq (s : State) : lazyReconcile s = .ok (s.ready, s.readyEngine) := by
  rcases lazyReconcile_cases (s := s) rfl with ⟨hstale, hr⟩ | ⟨e, he, hd, hr⟩
  · rw [hr, ready_of_stale hstale, readyEngine_of_stale hstale]
    rfl
  · rw [hr, ready_of_clean hd he, readyEngine_of_clean hd he]

/-! ### The DATA operations and the kinds they belong to -/

/-- The DATA read of a size, as `dataWriteOf` is the DATA write of a value. -/
def dataReadOf : Size → Instr
  | .byte => .rdDataB
  | .half => .rdDataH
  | .word => .rdDataW

@[simp] theorem reconcilesAt_dataReadOf (z : Size) (s : State) : reconcilesAt (dataReadOf z) s = s.isStale := by
  cases z <;> rfl

@[simp] theorem feedsAt_dataReadOf (z : Size) (s : State) : feedsAt (dataReadOf z) s = false := by cases z <;> rfl

@[simp] theorem dirtiesAt_dataReadOf (z : Size) (s : State) : dirtiesAt (dataReadOf z) s = false := by
  cases z <;> rfl

@[simp] theorem isDataWrite_dataReadOf (z : Size) : isDataWrite (dataReadOf z) = false := by cases z <;> rfl

@[simp] theorem isDataRead_dataReadOf (z : Size) : isDataRead (dataReadOf z) = true := by cases z <;> rfl

@[simp] theorem isDataWrite_dataWriteOf (d : BusData) : isDataWrite (dataWriteOf d) = true := by cases d <;> rfl

@[simp] theorem isWideDataWrite_dataWriteOf (d : BusData) :
    isWideDataWrite (dataWriteOf d) = decide (d.size ≠ .byte) := by
  cases d <;> rfl

@[simp] theorem dirtiesAt_dataWriteOf (d : BusData) (s : State) : dirtiesAt (dataWriteOf d) s = s.ctrl.was := by
  cases d <;> rfl

@[simp] theorem feedsAt_dataWriteOf (d : BusData) (s : State) :
    feedsAt (dataWriteOf d) s = (decide (d.size = .byte) && !s.ctrl.was) := by
  cases d <;> rfl

@[simp] theorem reconcilesAt_dataWriteOf (d : BusData) (s : State) :
    reconcilesAt (dataWriteOf d) s = (decide (d.size = .byte) && (!s.ctrl.was && s.isStale)) := by
  cases d <;> rfl

theorem reconcilesAt_wrCtrl (v : Word) (s : State) :
    reconcilesAt (.wrCtrl v) s = true ↔ s.ctrl.was = true ∧ v.getLsbD 25 = false :=
  isCommit_eq_true_iff _ _

@[simp] theorem feedsAt_wrCtrl (v : Word) (s : State) : feedsAt (.wrCtrl v) s = false := rfl

theorem isDataRead_eq_true_iff (i : Instr) : isDataRead i = true ↔ ∃ z, i = dataReadOf z := by
  constructor
  · intro h
    cases i with
    | rdDataB => exact ⟨.byte, rfl⟩
    | rdDataH => exact ⟨.half, rfl⟩
    | rdDataW => exact ⟨.word, rfl⟩
    | _ => cases h
  · rintro ⟨z, rfl⟩
    exact isDataRead_dataReadOf z

/-! ### One equation for each operation that reads the engine or the mode -/

/-- R89 to R91, R95. -/
theorem exec_dataReadOf (z : Size) (s : State) :
    exec (dataReadOf z) s = .next (s.ready.respond (.ofRead (.ofWord z (dataWord s s.readyEngine)))) := by
  have h : exec (dataReadOf z) s = readData z s := by cases z <;> rfl
  rw [h, readData, lazyReconcile_eq]
  rfl

/-- R86 in accumulate mode. -/
theorem exec_wrDataB_of_accumulate {s : State} (hw : s.ctrl.was = false) (v : Byte) :
    exec (.wrDataB v) s = .next ((s.ready.feed s.readyEngine [v]).respond .written) := by
  show execWrDataB v s = _
  rw [execWrDataB, lazyReconcile_eq]
  simp [hw]

/-- R92. -/
theorem exec_dataWriteOf_of_was {s : State} (hw : s.ctrl.was = true) (d : BusData) :
    exec (dataWriteOf d) s = .next (writeSeed d s) := by
  cases d <;> exact if_pos hw

/-- R87, R88 in accumulate mode. -/
theorem exec_wideWrite_of_accumulate {s : State} (hw : s.ctrl.was = false) {d : BusData} (hd : d.size ≠ .byte) :
    exec (dataWriteOf d) s = .next (s.raise (.unsupportedAccessWidth 0 d.size)) := by
  have hn : ¬ s.ctrl.was = true := by simp [hw]
  cases d with
  | byte v => exact absurd rfl hd
  | half v | word v => exact if_neg hn

/-- R102: the commit. -/
theorem exec_wrCtrl_of_commit {s : State} {v : Word} (hw : s.ctrl.was = true) (hv : v.getLsbD 25 = false) :
    exec (.wrCtrl v) s =
      .next ((((s.storeCtrl v).install (s.storeCtrl v).freshEngine).clearDirty).respond .written) := by
  rcases execWrCtrl_cases (v := v) (s := s) rfl with ⟨-, hr⟩ | ⟨hc, -⟩
  · exact hr
  · have hcommit : isCommit s.ctrl.was (Ctrl.ofWord v).was = true := (isCommit_eq_true_iff _ _).2 ⟨hw, hv⟩
    simp [hcommit] at hc

/-! ### All effects of an operation -/

/-- What an operation does to a state in which it answers a next one. -/
inductive Effect (s : State) : Instr → State → Prop
  | read (z : Size) :
      Effect s (dataReadOf z) (s.ready.respond (.ofRead (.ofWord z (dataWord s s.readyEngine))))
  | feed (v : Byte) (hw : s.ctrl.was = false) :
      Effect s (.wrDataB v) ((s.ready.feed s.readyEngine [v]).respond .written)
  | storeSeed (d : BusData) (hw : s.ctrl.was = true) : Effect s (dataWriteOf d) (writeSeed d s)
  | reject (d : BusData) (hw : s.ctrl.was = false) (hd : d.size ≠ .byte) :
      Effect s (dataWriteOf d) (s.raise (.unsupportedAccessWidth 0 d.size))
  | readPoly : Effect s .rdPoly (s.respond (.ofRead (.word s.poly)))
  | storePoly (v : Word) : Effect s (.wrPoly v) ((s.storePoly v).respond .written)
  | readCtrl : Effect s .rdCtrl (s.respond (.ofRead (.word s.ctrl.toWord)))
  | storeCtrl (v : Word) (hc : ¬(s.ctrl.was = true ∧ v.getLsbD 25 = false)) :
      Effect s (.wrCtrl v) ((s.storeCtrl v).respond .written)
  | commit (v : Word) (hw : s.ctrl.was = true) (hv : v.getLsbD 25 = false) :
      Effect s (.wrCtrl v) ((((s.storeCtrl v).install (s.storeCtrl v).freshEngine).clearDirty).respond .written)
  | readUnmapped (offset : Nat) (z : Size) :
      Effect s (.rdUnmapped offset z) (s.logUnmapped (.unmappedRead offset z) (some (.zero z)))
  | writeUnmapped (offset : Nat) (d : BusData) :
      Effect s (.wrUnmapped offset d) (s.logUnmapped (.unmappedWrite offset d) none)

theorem exec_narrow {i : Instr} (hi : isNarrowConfig i = true) (s : State) :
    exec i s = .refused .narrowConfigurationAccess := by
  cases i with
  | rdPolyB | rdPolyH | wrPolyB v | wrPolyH v | rdCtrlB | rdCtrlH | wrCtrlB v | wrCtrlH v => rfl
  | _ => cases hi

theorem exec_dataWriteOf_effect (d : BusData) (s : State) :
    ∃ t, exec (dataWriteOf d) s = .next t ∧ Effect s (dataWriteOf d) t := by
  cases hw : s.ctrl.was with
  | true => exact ⟨_, exec_dataWriteOf_of_was hw d, .storeSeed d hw⟩
  | false =>
    cases d with
    | byte v => exact ⟨_, exec_wrDataB_of_accumulate hw v, .feed v hw⟩
    | half v => exact ⟨_, exec_wideWrite_of_accumulate hw (d := .half v) nofun, .reject (.half v) hw nofun⟩
    | word v => exact ⟨_, exec_wideWrite_of_accumulate hw (d := .word v) nofun, .reject (.word v) hw nofun⟩

/-- Every operation but the refused ones answers a next state, with one of the effects. -/
theorem exec_effect {i : Instr} (hi : isNarrowConfig i = false) (s : State) :
    ∃ t, exec i s = .next t ∧ Effect s i t := by
  cases i with
  | rdDataB => exact ⟨_, exec_dataReadOf .byte s, .read .byte⟩
  | rdDataH => exact ⟨_, exec_dataReadOf .half s, .read .half⟩
  | rdDataW => exact ⟨_, exec_dataReadOf .word s, .read .word⟩
  | wrDataB v => exact exec_dataWriteOf_effect (.byte v) s
  | wrDataH v => exact exec_dataWriteOf_effect (.half v) s
  | wrDataW v => exact exec_dataWriteOf_effect (.word v) s
  | rdPoly => exact ⟨_, rfl, .readPoly⟩
  | wrPoly v => exact ⟨_, rfl, .storePoly v⟩
  | rdCtrl => exact ⟨_, rfl, .readCtrl⟩
  | wrCtrl v =>
    by_cases hc : s.ctrl.was = true ∧ v.getLsbD 25 = false
    · exact ⟨_, exec_wrCtrl_of_commit hc.1 hc.2, .commit v hc.1 hc.2⟩
    · exact ⟨_, exec_wrCtrl_of_not_commit hc, .storeCtrl v hc⟩
  | rdUnmapped offset z => exact ⟨_, rfl, .readUnmapped offset z⟩
  | wrUnmapped offset d => exact ⟨_, rfl, .writeUnmapped offset d⟩
  | rdPolyB | rdPolyH | wrPolyB v | wrPolyH v | rdCtrlB | rdCtrlH | wrCtrlB v | wrCtrlH v => cases hi

theorem not_narrow_of_next {i : Instr} {s t : State} (h : exec i s = .next t) : isNarrowConfig i = false := by
  cases hi : isNarrowConfig i with
  | true => simp [exec_narrow hi] at h
  | false => rfl

/-- The inversion: an operation that answers a next state had one of the effects. -/
theorem effect_of_exec {i : Instr} {s t : State} (h : exec i s = .next t) : Effect s i t := by
  obtain ⟨u, hu, heffect⟩ := exec_effect (not_narrow_of_next h) s
  cases hu.symm.trans h
  exact heffect

/-- Settles O47. -/
theorem everyOperationCompletes : Obligations.EveryOperationCompletes := by
  intro s i hi
  obtain ⟨t, ht, -⟩ := exec_effect hi s
  exact ⟨t, ht⟩

/-- Settles O32: none of the eight arms reads the state. -/
theorem narrowConfigurationAccessesAreRefused : Obligations.NarrowConfigurationAccessesAreRefused := fun s =>
  ⟨exec_narrow rfl s, exec_narrow rfl s, exec_narrow rfl s, exec_narrow rfl s, fun _ => exec_narrow rfl s,
    fun _ => exec_narrow rfl s, fun _ => exec_narrow rfl s, fun _ => exec_narrow rfl s⟩

end Sys2Proof.Machine
end

section
/-! What the operations do, statement by statement (R86 to R107), and how a step runs them (R37, R115, R122, R125). -/
namespace Sys2Proof.Machine

@[simp] theorem State.ready_poly (s : State) : s.ready.poly = s.poly := rfl
@[simp] theorem State.ready_ctrl (s : State) : s.ready.ctrl = s.ctrl := rfl
@[simp] theorem State.ready_seed (s : State) : s.ready.seed = s.seed := rfl
@[simp] theorem State.ready_configDirty (s : State) : s.ready.configDirty = false := rfl
@[simp] theorem State.ready_engine (s : State) : s.ready.engine = some s.readyEngine := rfl
@[simp] theorem State.ready_inbox (s : State) : s.ready.inbox = s.inbox := rfl
@[simp] theorem State.ready_log (s : State) : s.ready.log = s.log := rfl
@[simp] theorem State.ready_faults (s : State) : s.ready.faults = s.faults := rfl

/-! ### DATA (R76, R86 to R97) -/

/-- Settles O21. -/
theorem lazyReconcileOnlyWhenStale : Obligations.LazyReconcileOnlyWhenStale := by
  refine fun s => ⟨fun h => ?_, fun e hd he => ?_⟩
  · have hstale : s.isStale = true := (isStale_eq_true_iff s).2 h
    rw [lazyReconcile_eq, ready_of_stale hstale, readyEngine_of_stale hstale, reconcile_cases (s := s) rfl]
    rfl
  · rw [lazyReconcile_eq, ready_of_clean hd he, readyEngine_of_clean hd he]

theorem feed_singleton (s : State) (e : Engine) (v : Byte) :
    s.feed e [v] = { s with engine := some (e.update [v]), fed := true } := by
  simp [State.feed]

/-- Settles O22: the state of the feed is the one lazy reconciliation leaves, clean or stale. -/
theorem accumulateByteWriteFeedsTheEngine : Obligations.AccumulateByteWriteFeedsTheEngine := by
  intro s v hw
  rw [exec_wrDataB_of_accumulate hw, feed_singleton]
  refine ⟨fun e hd he => ?_, fun h => ?_⟩
  · rw [ready_of_clean hd he, readyEngine_of_clean hd he]
    rfl
  · have hstale : s.isStale = true := (isStale_eq_true_iff s).2 h
    rw [ready_of_stale hstale, readyEngine_of_stale hstale]
    rfl

/-- Settles O23: each size is the seed store of its zero-extended value. -/
theorem seedModeWriteReplacesTheSeed : Obligations.SeedModeWriteReplacesTheSeed := fun _ hw =>
  ⟨fun v => exec_dataWriteOf_of_was hw (.byte v), fun v => exec_dataWriteOf_of_was hw (.half v),
    fun v => exec_dataWriteOf_of_was hw (.word v)⟩

/-- Settles O24. -/
theorem wideWriteInAccumulateModeIsRejected : Obligations.WideWriteInAccumulateModeIsRejected := fun _ hw =>
  ⟨fun v => exec_wideWrite_of_accumulate hw (d := .half v) nofun,
    fun v => exec_wideWrite_of_accumulate hw (d := .word v) nofun⟩

/-- Settles O25: the state of the read is the one lazy reconciliation leaves, clean or stale. -/
theorem doublewordReadReportsTheValue : Obligations.DoublewordReadReportsTheValue := by
  intro s
  rw [show exec .rdDataW s = _ from exec_dataReadOf .word s]
  refine ⟨fun e hd he => ?_, fun h => ?_⟩
  · rw [ready_of_clean hd he, readyEngine_of_clean hd he]
    rfl
  · have hstale : s.isStale = true := (isStale_eq_true_iff s).2 h
    rw [ready_of_stale hstale, readyEngine_of_stale hstale]
    rfl

/-- Settles O26: the three reads differ in how much of the same word they report. -/
theorem narrowReadsReportTheLowBits : Obligations.NarrowReadsReportTheLowBits := fun s =>
  ⟨_, dataWord s s.readyEngine, exec_dataReadOf .word s, rfl,
    by rw [← BitVec.setWidth_eq_extractLsb' (by decide)]; exact exec_dataReadOf .half s,
    by rw [← BitVec.setWidth_eq_extractLsb' (by decide)]; exact exec_dataReadOf .byte s⟩

/-- After a read the state is clean, and another read works in it as it stands. -/
theorem ready_respond_ready (s : State) (r : Response) : (s.ready.respond r).ready = s.ready.respond r :=
  ready_of_clean (e := s.readyEngine) rfl rfl

/-- Settles O52: the second read finds the engine of the first, with nothing left to reconcile. -/
theorem rereadReturnsTheSame : Obligations.RereadReturnsTheSame := by
  intro s t i hi h
  obtain ⟨z, rfl⟩ := (isDataRead_eq_true_iff i).1 hi
  cases (exec_dataReadOf z s).symm.trans h
  rw [exec_dataReadOf, ready_respond_ready]
  rfl

/-- A byte write overwrites what was delivered before, and reads it not. -/
theorem exec_wrDataB_respond (s : State) (r : Response) (v : Byte) :
    exec (.wrDataB v) (s.respond r) = exec (.wrDataB v) s := by
  cases hw : s.ctrl.was with
  | true =>
    have hw' : (s.respond r).ctrl.was = true := hw
    rw [show exec (.wrDataB v) s = _ from exec_dataWriteOf_of_was hw (.byte v),
      show exec (.wrDataB v) (s.respond r) = _ from exec_dataWriteOf_of_was hw' (.byte v)]
    rfl
  | false =>
    rw [exec_wrDataB_of_accumulate hw, exec_wrDataB_of_accumulate (s := s.respond r) hw]
    rfl

/-- Settles O53: a read of a clean state only delivers a response. -/
theorem readingDoesNotDisturbTheMessage : Obligations.ReadingDoesNotDisturbTheMessage := by
  intro s t i v hi hd he h
  obtain ⟨e, he⟩ := Option.ne_none_iff_exists'.1 he
  obtain ⟨z, rfl⟩ := (isDataRead_eq_true_iff i).1 hi
  cases (exec_dataReadOf z s).symm.trans h
  rw [ready_of_clean hd he, exec_wrDataB_respond]

/-- Settles O54: store, commit and read, each by its equation. -/
theorem seedRoundTrip : Obligations.SeedRoundTrip := by
  rintro s d v c hw hv rfl
  refine ⟨_, _, _, exec_dataWriteOf_of_was hw d, exec_wrCtrl_of_commit (s := writeSeed d s) hw hv,
    exec_dataReadOf .word _, ?_⟩
  simp only [State.respond_response, dataWord]
  rw [if_neg (by simpa [Ctrl.ofWord] using hv)]
  rfl

/-! ### POLYNOMIAL and CONTROL (R98 to R104) -/

/-- Settles O27. -/
theorem polynomialRegisterStoresAndReportsRaw : Obligations.PolynomialRegisterStoresAndReportsRaw := fun _ =>
  ⟨fun _ => rfl, rfl⟩

/-- Settles O28: off the commit edge the store alone, on it the store and the fresh engine of the stored fields. -/
theorem controlWriteStoresFieldsAndCommits : Obligations.ControlWriteStoresFieldsAndCommits := by
  rintro s v c rfl
  exact ⟨fun hc => exec_wrCtrl_of_not_commit hc, fun ⟨hw, hv⟩ => exec_wrCtrl_of_commit hw hv⟩

/-- The layout of CONTROL (R48). -/
theorem ctrl_toWord_fields (c : Ctrl) :
    c.toWord.extractLsb' 30 2 = c.tot ∧ c.toWord.extractLsb' 28 2 = c.totr ∧ c.toWord.getLsbD 27 = false ∧
      c.toWord.getLsbD 26 = c.fxor ∧ c.toWord.getLsbD 25 = c.was ∧ c.toWord.getLsbD 24 = c.tcrc ∧
      c.toWord.extractLsb' 0 24 = 0 := by
  obtain ⟨tcrc, was, fxor, totr, tot⟩ := c
  revert tcrc was fxor totr tot
  decide

/-- Settles O29. -/
theorem controlReadReportsFieldsInPlace : Obligations.ControlReadReportsFieldsInPlace := fun s =>
  ⟨s.ctrl.toWord, rfl, ctrl_toWord_fields s.ctrl⟩

/-- A field of a word, put back in its place, is the word under the field's mask. -/
theorem extractLsb'_in_place (v : Word) (k n : Nat) :
    (v.extractLsb' k n).setWidth 32 <<< k = v &&& (mask n <<< k) := by
  refine BitVec.eq_of_getLsbD_eq fun i hi => ?_
  simp only [BitVec.getLsbD_shiftLeft, BitVec.getLsbD_setWidth, BitVec.getLsbD_extractLsb', BitVec.getLsbD_and,
    getLsbD_mask]
  by_cases hk : i < k
  · simp [hk]
  · have hback : k + (i - k) = i := by omega
    have hlt : i - k < 32 := by omega
    simp [hi, hk, hback, hlt, Bool.and_comm]

theorem bitWord_getLsbD (v : Word) (k : Nat) : bitWord (v.getLsbD k) = (v.extractLsb' k 1).setWidth 32 := by
  refine BitVec.eq_of_getLsbD_eq fun i hi => ?_
  simp only [BitVec.getLsbD_setWidth, BitVec.getLsbD_extractLsb']
  cases i with
  | zero => cases h : v.getLsbD k <;> simp [bitWord]
  | succ i => cases v.getLsbD k <;> simp [bitWord]

/-- The writable bits of CONTROL (R48, R55). -/
theorem toWord_ofWord (v : Word) : (Ctrl.ofWord v).toWord = v &&& 0xF7000000 := by
  have hmask : (0xF7000000 : Word) =
      mask 2 <<< 30 ||| mask 2 <<< 28 ||| mask 1 <<< 26 ||| mask 1 <<< 25 ||| mask 1 <<< 24 := by decide
  simp only [Ctrl.toWord, Ctrl.ofWord, bitWord_getLsbD, extractLsb'_in_place, hmask, BitVec.and_or_distrib_left]
theorem exec_wrCtrl_ctrl {s t : State} {v : Word} (h : exec (.wrCtrl v) s = .next t) : t.ctrl = Ctrl.ofWord v := by
  rcases execWrCtrl_cases h with ⟨-, hr⟩ | ⟨-, hr⟩ <;> cases hr <;> rfl

/-- Settles O30. -/
theorem controlReadsBackUnderTheWritableMask : Obligations.ControlReadsBackUnderTheWritableMask := by
  intro s v
  obtain ⟨t, ht, -⟩ := exec_effect (i := .wrCtrl v) rfl s
  refine ⟨t, _, ht, rfl, ?_⟩
  rw [State.respond_response, exec_wrCtrl_ctrl ht, toWord_ofWord]

/-- Settles O33: the commit installs the engine of the stored fields; every other effect outside DATA keeps the engine
holder, and keeps or sets the dirty bit. -/
theorem commitLoadsTheMaskedSeed : Obligations.CommitLoadsTheMaskedSeed := by
  refine ⟨fun s v hw hv => ⟨_, _, exec_wrCtrl_of_commit hw hv, rfl, rfl, rfl, rfl, rfl, rfl⟩, ?_⟩
  intro s t i hread hwrite hcommit h
  cases effect_of_exec h with
  | read z => simp at hread
  | feed v hw => cases hwrite
  | storeSeed d hw | reject d hw hd => simp at hwrite
  | commit v hw hv => exact absurd ⟨v, rfl, hw, hv⟩ hcommit
  | readPoly | readCtrl | readUnmapped offset z | writeUnmapped offset d => exact ⟨rfl, id⟩
  | storePoly v | storeCtrl v hc => exact ⟨rfl, fun _ => rfl⟩

/-! ### Unmapped offsets (R105, R106) -/

/-- Settles O31. -/
theorem unmappedAccessesOnlyLog : Obligations.UnmappedAccessesOnlyLog := fun _ _ =>
  ⟨fun z => ⟨.zero z, BusData.size_ofWord z 0, by cases z <;> rfl, rfl⟩, fun _ => rfl⟩

/-- Settles O41. -/
theorem unmappedAccessFrame : Obligations.UnmappedAccessFrame := by
  rintro s t offset (⟨z, h⟩ | ⟨d, h⟩) <;> cases h <;> exact ⟨rfl, List.length_append⟩

/-! ### Reset (R28, R122, R125) -/

/-- Settles O34. -/
theorem resetStateHoldsTheDefaults : Obligations.ResetStateHoldsTheDefaults := by
  unfold Obligations.ResetStateHoldsTheDefaults
  decide

/-- Settles O42. -/
theorem resetMeetsTheInvariant : Obligations.ResetMeetsTheInvariant := reset_inv

/-- Settles O36: the read and the byte work with the engine of the defaults, the wide write with none. -/
theorem firstAccessesAfterReset : Obligations.FirstAccessesAfterReset := by
  refine ⟨⟨_, exec_dataReadOf .word State.reset, by decide, by decide⟩,
    ⟨_, _, exec_wrDataB_of_accumulate (s := State.reset) rfl 0x31, rfl, by decide, rfl⟩, fun v => ?_⟩
  exact ⟨_, exec_wideWrite_of_accumulate (s := State.reset) rfl (d := .word v) nofun, rfl, rfl, rfl⟩

/-! ### Stepping (R6, R37, R38, R115) -/

theorem step_transaction {s : State} {t : Transaction} {rest : List BusInput} {i : Instr}
    (hs : s.inbox = .transaction t :: rest) (hi : decode t = .ok i) : step s = exec i { s with inbox := rest } := by
  simp [step, hs, hi]

theorem step_reserved {s : State} {t : Transaction} {rest : List BusInput} (hs : s.inbox = .transaction t :: rest)
    (hz : t.sz = 3) : step s = .refused .invalidSizeCode := by
  simp [step, hs, decode_reserved hz]

theorem step_reset {s : State} {rest : List BusInput} (hs : s.inbox = .reset :: rest) :
    step s = .next (State.systemReset { s with inbox := rest }) := by
  simp [step, hs]

/-- Settles O2, one clause for each kind of first input. -/
theorem stepRunsDecodedTransaction : Obligations.StepRunsDecodedTransaction :=
  ⟨fun _ _ _ _ hs hi => step_transaction hs hi, fun _ _ _ hs hz => step_reserved hs hz, fun _ _ hs => step_reset hs,
    fun s hs => by simp [step, hs]⟩

/-- Settles O35. -/
theorem systemResetRestoresTheDefaults : Obligations.SystemResetRestoresTheDefaults := fun _ _ hs =>
  ⟨_, step_reset hs, rfl, rfl, rfl, rfl, rfl, rfl, rfl, rfl, rfl, rfl⟩

/-! ### The order of the checks (R115) -/

theorem decodeData_read (z : Size) (wd : Word) : decodeData .read z wd = dataReadOf z := by cases z <;> rfl

theorem decodeData_write (z : Size) (wd : Word) : decodeData .write z wd = dataWriteOf (.ofWord z wd) := by
  cases z <;> rfl

theorem isNarrowConfig_decoded {z : Size} (hz : z ≠ .word) (rw : Direction) (wd : Word) :
    isNarrowConfig (decodePoly rw z wd) = true ∧ isNarrowConfig (decodeCtrl rw z wd) = true := by
  cases z with
  | word => exact absurd rfl hz
  | byte | half => cases rw <;> exact ⟨rfl, rfl⟩

/-- An operation ends with outcome ok, and adds to neither record. -/
def CompletesQuietly (i : Instr) (s : State) : Prop :=
  ∃ u rd, exec i s = .next u ∧ u.response = some { outcome := .ok, rdata := rd, event := none } ∧
    u.faults = s.faults ∧ u.log = s.log

theorem dataReadOf_completesQuietly (z : Size) (s : State) : CompletesQuietly (dataReadOf z) s :=
  ⟨_, _, exec_dataReadOf z s, rfl, rfl, rfl⟩

/-- A DATA write that the width check lets through: in seed mode, or of one byte. -/
theorem dataWriteOf_completesQuietly {d : BusData} {s : State} (h : s.ctrl.was = true ∨ d.size = .byte) :
    CompletesQuietly (dataWriteOf d) s := by
  cases hw : s.ctrl.was with
  | true => exact ⟨_, _, exec_dataWriteOf_of_was hw d, rfl, rfl, rfl⟩
  | false =>
    have hd : d.size = .byte := h.resolve_left (by simp [hw])
    cases d with
    | byte v => exact ⟨_, _, exec_wrDataB_of_accumulate hw v, rfl, rfl, rfl⟩
    | half v | word v => cases hd

theorem wrCtrl_completesQuietly (v : Word) (s : State) : CompletesQuietly (.wrCtrl v) s := by
  obtain ⟨t, ht, -⟩ := exec_effect (i := .wrCtrl v) rfl s
  rcases execWrCtrl_cases ht with ⟨-, hr⟩ | ⟨-, hr⟩ <;> cases hr <;> exact ⟨_, _, ht, rfl, rfl, rfl⟩

theorem decoded_word_completesQuietly (rw : Direction) (wd : Word) (s : State) :
    CompletesQuietly (decodePoly rw .word wd) s ∧ CompletesQuietly (decodeCtrl rw .word wd) s := by
  cases rw with
  | read => exact ⟨⟨_, _, rfl, rfl, rfl, rfl⟩, ⟨_, _, rfl, rfl, rfl, rfl⟩⟩
  | write => exact ⟨⟨_, _, rfl, rfl, rfl, rfl⟩, wrCtrl_completesQuietly wd s⟩

theorem exists_code_of_ne_three {c : BitVec 2} (hc : c ≠ 3) : ∃ z : Size, c = z.code := by
  rcases ofCode_cases c with ⟨z, -, hz⟩ | ⟨-, hz⟩
  · exact ⟨z, hz⟩
  · exact absurd hz hc

/-- R47: what DATA completes, by direction, mode and size. -/
theorem decodeData_completesQuietly {rw : Direction} {z : Size} {wd : Word} {s : State}
    (h : rw = .read ∨ s.ctrl.was = true ∨ z = .byte) : CompletesQuietly (decodeData rw z wd) s := by
  cases rw with
  | read => exact decodeData_read z wd ▸ dataReadOf_completesQuietly z s
  | write =>
    rw [decodeData_write]
    refine dataWriteOf_completesQuietly ?_
    rw [BusData.size_ofWord]
    exact h.resolve_left nofun

/-- Settles O6: each clause fixes the branch of the decoder, and the decoded operation answers as its equation says. -/
theorem checkOrderDecidesOutcome : Obligations.CheckOrderDecidesOutcome := by
  intro s t rest hs
  refine ⟨step_reserved hs, fun hsz ho => ?_, fun hsz ho hword => ?_, fun ho hrw hw hsz => ?_, ?_⟩
  · obtain ⟨z, hz⟩ := exists_code_of_ne_three hsz
    rw [step_transaction hs (decode_unmapped hz ho)]
    refine ⟨z, hz.symm, fun hrw => ?_, fun hrw => ?_⟩ <;> rw [hrw] <;> rfl
  · obtain ⟨z, hz⟩ := exists_code_of_ne_three hsz
    have hne : z ≠ .word := fun h => hword (by rw [hz, h]; rfl)
    obtain ⟨hpoly, hctrl⟩ := isNarrowConfig_decoded hne t.rw t.wdata
    rcases ho with ho | ho
    · rw [step_transaction hs (decode_poly hz ho), exec_narrow hpoly]
    · rw [step_transaction hs (decode_ctrl hz ho), exec_narrow hctrl]
  · have hreserved : t.sz ≠ 3 := by rcases hsz with h | h <;> rw [h] <;> decide
    obtain ⟨z, hz⟩ := exists_code_of_ne_three hreserved
    have hne : z ≠ .byte := by rintro rfl; rw [hz] at hsz; revert hsz; decide
    refine ⟨z, hz.symm, ?_⟩
    rw [step_transaction hs (decode_data hz ho), hrw, decodeData_write,
      exec_wideWrite_of_accumulate (s := { s with inbox := rest }) hw (by rwa [BusData.size_ofWord]),
      BusData.size_ofWord]
    rfl
  · rintro (⟨hsz, ho | ho⟩ | ⟨ho, hsz, hcase⟩)
    · rw [step_transaction hs (decode_poly (z := .word) hsz ho)]
      exact (decoded_word_completesQuietly t.rw t.wdata { s with inbox := rest }).1
    · rw [step_transaction hs (decode_ctrl (z := .word) hsz ho)]
      exact (decoded_word_completesQuietly t.rw t.wdata { s with inbox := rest }).2
    · obtain ⟨z, hz⟩ := exists_code_of_ne_three hsz
      have hbyte : t.sz = 0 → z = .byte := by rw [hz]; cases z <;> decide
      rw [step_transaction hs (decode_data hz ho)]
      exact decodeData_completesQuietly (s := { s with inbox := rest }) (hcase.imp_right (Or.imp_right hbyte))

end Sys2Proof.Machine
end

section
/-! Frames and whole-machine rules, by the cases of `Effect`: what each operation leaves unchanged (R36), the dirty bit
(R78, R79), the lifecycle (R82), the owners of the fields (R11 to R16), and the two records (R108, R116, R117). -/
namespace Sys2Proof.Machine

/-! ### The updates of the state that are left to say -/

@[simp] theorem writeSeed_poly (d : BusData) (s : State) : (writeSeed d s).poly = s.poly := rfl
@[simp] theorem writeSeed_ctrl (d : BusData) (s : State) : (writeSeed d s).ctrl = s.ctrl := rfl
@[simp] theorem writeSeed_seed (d : BusData) (s : State) : (writeSeed d s).seed = d.zext := rfl
@[simp] theorem writeSeed_configDirty (d : BusData) (s : State) : (writeSeed d s).configDirty = true := rfl
@[simp] theorem writeSeed_fed (d : BusData) (s : State) : (writeSeed d s).fed = s.fed := rfl
@[simp] theorem writeSeed_inbox (d : BusData) (s : State) : (writeSeed d s).inbox = s.inbox := rfl
@[simp] theorem writeSeed_log (d : BusData) (s : State) : (writeSeed d s).log = s.log := rfl
@[simp] theorem writeSeed_faults (d : BusData) (s : State) : (writeSeed d s).faults = s.faults := rfl

theorem ready_of_not_stale {s : State} (h : s.isStale = false) : s.ready = s := by
  obtain ⟨hd, e, he⟩ := isStale_eq_false h
  exact ready_of_clean hd he

/-! ### Frames (R36) -/

/-- Settles O38. -/
theorem dataReadFrame : Obligations.DataReadFrame := by
  intro s t i hi h
  obtain ⟨z, rfl⟩ := (isDataRead_eq_true_iff i).1 hi
  cases (exec_dataReadOf z s).symm.trans h
  refine ⟨rfl, rfl, rfl, rfl, rfl, rfl, fun hd he => ?_⟩
  obtain ⟨e, he⟩ := Option.ne_none_iff_exists'.1 he
  rw [ready_of_clean hd he]
  exact ⟨rfl, rfl, rfl⟩

/-- Settles O39: a DATA write is fed, stored or rejected. -/
theorem dataWriteFrame : Obligations.DataWriteFrame := by
  intro s t i hi h
  cases effect_of_exec h with
  | feed v hw => simp [hw, isWideDataWrite]
  | storeSeed d hw => simp [hw]
  | reject d hw hd => simp [hw, hd]
  | read z => simp at hi
  | _ => cases hi

/-- Settles O40. -/
theorem configRegisterFrame : Obligations.ConfigRegisterFrame := by
  refine fun s t => ⟨fun v h => ?_, fun v h => ?_, ?_⟩
  · cases h
    exact ⟨rfl, rfl, rfl, rfl, rfl, rfl, rfl⟩
  · rcases execWrCtrl_cases h with ⟨-, hr⟩ | ⟨-, hr⟩ <;> cases hr <;> exact ⟨rfl, rfl, rfl, rfl, rfl⟩
  · rintro (h | h) <;> cases h <;> rfl

/-! ### The dirty bit and the lifecycle (R78, R79, R82) -/

/-- Settles O44: a DATA access of a clean state finds the bit clear and leaves it so. -/
theorem dirtyBitFollowsWritesAndReconciliation : Obligations.DirtyBitFollowsWritesAndReconciliation := by
  intro s t i h
  have hclean : s.isStale = false → s.configDirty = false := fun hs => (isStale_eq_false hs).1
  cases effect_of_exec h with
  | read z => cases hs : s.isStale <;> simp [hs, hclean]
  | feed v hw => cases hs : s.isStale <;> simp [reconcilesAt, dirtiesAt, hw, hs, hclean]
  | storeSeed d hw => simp [hw]
  | reject d hw hd => simp [hw, hd]
  | commit v hw hv =>
    rw [if_pos ((reconcilesAt_wrCtrl v s).2 ⟨hw, hv⟩)]
    rfl
  | storeCtrl v hc =>
    rw [if_neg fun h => hc ((reconcilesAt_wrCtrl v s).1 h)]
    rfl
  | readPoly | readCtrl | storePoly v | readUnmapped offset z | writeUnmapped offset d => rfl

theorem lifecycle_of_fed {s : State} {e : Engine} (he : s.engine = some e) (hf : s.fed = true) :
    s.lifecycle = .accumulating := by simp [State.lifecycle, he, hf]

theorem lifecycle_of_not_fed {s : State} {e : Engine} (he : s.engine = some e) (hf : s.fed = false) :
    s.lifecycle = .idle := by simp [State.lifecycle, he, hf]

/-- R82 for the operations. -/
theorem Effect.lifecycle_eq {i : Instr} {s t : State} (h : Effect s i t) :
    t.lifecycle = if feedsAt i s then .accumulating else if reconcilesAt i s then .idle else s.lifecycle := by
  cases h with
  | feed v hw =>
    rw [if_pos (by simp [feedsAt, hw])]
    exact lifecycle_of_fed rfl (by simp)
  | read z =>
    rw [feedsAt_dataReadOf, reconcilesAt_dataReadOf, if_neg Bool.false_ne_true]
    split
    · next hs => exact lifecycle_of_not_fed rfl (by simp [State.ready, hs])
    · next hs =>
      rw [ready_of_not_stale (Bool.eq_false_iff.2 hs)]
      exact lifecycle_congr rfl rfl
  | commit v hw hv =>
    rw [feedsAt_wrCtrl, if_neg Bool.false_ne_true, if_pos ((reconcilesAt_wrCtrl v s).2 ⟨hw, hv⟩)]
    exact lifecycle_of_not_fed rfl rfl
  | storeCtrl v hc =>
    rw [feedsAt_wrCtrl, if_neg Bool.false_ne_true, if_neg fun h => hc ((reconcilesAt_wrCtrl v s).1 h)]
    exact lifecycle_congr rfl rfl
  | storeSeed d hw =>
    rw [if_neg (by simp [hw]), if_neg (by simp [hw])]
    exact lifecycle_congr rfl rfl
  | reject d hw hd =>
    rw [if_neg (by simp [hd]), if_neg (by simp [hd])]
    exact lifecycle_congr rfl rfl
  | readPoly | readCtrl | storePoly v | readUnmapped offset z | writeUnmapped offset d =>
    exact lifecycle_congr rfl rfl

/-- Settles O46. -/
theorem lifecycleFollowsTheTable : Obligations.LifecycleFollowsTheTable := by
  refine ⟨fun s t i h => (effect_of_exec h).lifecycle_eq, fun s t rest hs h => ?_⟩
  cases (step_reset hs).symm.trans h
  rfl

/-! ### The owners of the fields (R11 to R16) -/

theorem Effect.poly_owner {i : Instr} {s t : State} (h : Effect s i t) : t.poly = s.poly ∨ ∃ v, i = .wrPoly v := by
  cases h with
  | storePoly v => exact .inr ⟨v, rfl⟩
  | _ => exact .inl rfl

theorem Effect.ctrl_owner {i : Instr} {s t : State} (h : Effect s i t) : t.ctrl = s.ctrl ∨ ∃ v, i = .wrCtrl v := by
  cases h with
  | storeCtrl v | commit v => exact .inr ⟨v, rfl⟩
  | _ => exact .inl rfl

theorem Effect.seed_owner {i : Instr} {s t : State} (h : Effect s i t) :
    t.seed = s.seed ∨ (s.ctrl.was = true ∧ ∃ d, i = dataWriteOf d) := by
  cases h with
  | storeSeed d hw => exact .inr ⟨hw, d, rfl⟩
  | _ => exact .inl rfl

theorem Effect.engine_ne_none {i : Instr} {s t : State} (h : Effect s i t) (he : s.engine ≠ none) :
    t.engine ≠ none := by
  cases h with
  | read z | feed v hw | commit v hw hv => exact nofun
  | _ => exact he

/-- Settles O45: a step without input changes nothing, and in a transaction each field has its owner. -/
theorem fieldsChangeOnlyByTheirOwners : Obligations.FieldsChangeOnlyByTheirOwners := by
  intro s t h
  rcases step_cases h with ⟨-, hr⟩ | ⟨rest, hs, -⟩ | ⟨x, rest, i, hs, hdec, hr⟩ | ⟨x, rest, -, -, hr⟩
  · cases hr
    exact .inr ⟨absurd rfl, absurd rfl, absurd rfl, id⟩
  · exact .inl ⟨rest, hs⟩
  · have heffect := effect_of_exec hr.symm
    refine .inr ⟨fun hne => ?_, fun hne => ?_, fun hne => ?_, heffect.engine_ne_none⟩
    · obtain ⟨v, rfl⟩ := heffect.poly_owner.resolve_left hne
      exact ⟨x, rest, v, hs, hdec⟩
    · obtain ⟨v, rfl⟩ := heffect.ctrl_owner.resolve_left hne
      exact ⟨x, rest, v, hs, hdec⟩
    · obtain ⟨hw, d, rfl⟩ := heffect.seed_owner.resolve_left hne
      exact ⟨hw, x, rest, d, hs, hdec⟩
  · cases hr

/-! ### Inputs, records and faults (R38, R108, R116, R117) -/

theorem Effect.inbox_eq {i : Instr} {s t : State} (h : Effect s i t) : t.inbox = s.inbox := by
  cases h <;> rfl

theorem Effect.log_grows {i : Instr} {s t : State} (h : Effect s i t) : ∃ es, t.log = s.log ++ es ∧ es.length ≤ 1 := by
  cases h with
  | readUnmapped offset z | writeUnmapped offset d => exact ⟨[_], rfl, Nat.le_refl 1⟩
  | _ => exact ⟨[], (List.append_nil _).symm, Nat.zero_le 1⟩

theorem Effect.faults_grow {i : Instr} {s t : State} (h : Effect s i t) :
    ∃ fs, t.faults = s.faults ++ fs ∧ fs.length ≤ 1 := by
  cases h with
  | reject d hw hd => exact ⟨[_], rfl, Nat.le_refl 1⟩
  | _ => exact ⟨[], (List.append_nil _).symm, Nat.zero_le 1⟩

/-- Settles O51. -/
theorem inputsInOrderAndRecordsOnlyGrow : Obligations.InputsInOrderAndRecordsOnlyGrow := by
  intro s t h
  have hkeep {α : Type} (l : List α) : ∃ es, l = l ++ es ∧ es.length ≤ 1 :=
    ⟨[], (List.append_nil l).symm, Nat.zero_le 1⟩
  rcases step_cases h with ⟨hs, hr⟩ | ⟨rest, hs, hr⟩ | ⟨x, rest, i, hs, -, hr⟩ | ⟨x, rest, -, -, hr⟩
  · cases hr
    exact ⟨by rw [hs]; rfl, hkeep _, hkeep _⟩
  · cases hr
    exact ⟨by rw [hs]; rfl, hkeep _, hkeep _⟩
  · have heffect := effect_of_exec hr.symm
    exact ⟨by rw [hs]; exact heffect.inbox_eq, heffect.log_grows, heffect.faults_grow⟩
  · cases hr

/-- Settles O49: only a rejected wide write ends in a fault, and raising one leaves the block alone. -/
theorem faultsArePrecise : Obligations.FaultsArePrecise := by
  intro s t i f r h hr hf
  rcases exec_rejects_or_completes h with ⟨-, -, size, rfl⟩ | ⟨-, ht⟩
  · cases hr
    cases hf
    exact ⟨rfl, rfl, rfl, rfl⟩
  · obtain ⟨rd, ev, hok⟩ := ht
    cases hr.symm.trans hok
    cases hf

end Sys2Proof.Machine
end

section
/-! What cannot be observed: the history behind the block (R29, R117), and whether a stale engine is there (R124, R127,
R128, R131). An effect on a state and on its normal form is the same one, with the same normal form after it. -/
namespace Sys2Proof.Machine

/-- Each effect is what its operation answers. -/
theorem exec_of_effect {i : Instr} {s t : State} (h : Effect s i t) : exec i s = .next t := by
  cases h with
  | read z => exact exec_dataReadOf z s
  | feed v hw => exact exec_wrDataB_of_accumulate hw v
  | storeSeed d hw => exact exec_dataWriteOf_of_was hw d
  | reject d hw hd => exact exec_wideWrite_of_accumulate hw hd
  | storeCtrl v hc => exact exec_wrCtrl_of_not_commit hc
  | commit v hw hv => exact exec_wrCtrl_of_commit hw hv
  | readPoly | storePoly v | readCtrl | readUnmapped offset z | writeUnmapped offset d => rfl

/-! ### History (R29, R117) -/

/-- What an operation does to the block and delivers depends on the block alone. -/
theorem Effect.on_block {i : Instr} {s t : State} (h : Effect s i t) :
    ∃ u, Effect s.block i u ∧ t.block = u.block ∧ t.response = u.response := by
  cases h with
  | read z => exact ⟨_, .read z, rfl, rfl⟩
  | feed v hw => exact ⟨_, .feed v hw, rfl, rfl⟩
  | storeSeed d hw => exact ⟨_, .storeSeed d hw, rfl, rfl⟩
  | reject d hw hd => exact ⟨_, .reject d hw hd, rfl, rfl⟩
  | readPoly => exact ⟨_, .readPoly, rfl, rfl⟩
  | storePoly v => exact ⟨_, .storePoly v, rfl, rfl⟩
  | readCtrl => exact ⟨_, .readCtrl, rfl, rfl⟩
  | storeCtrl v hc => exact ⟨_, .storeCtrl v hc, rfl, rfl⟩
  | commit v hw hv => exact ⟨_, .commit v hw hv, rfl, rfl⟩
  | readUnmapped offset z => exact ⟨_, .readUnmapped offset z, rfl, rfl⟩
  | writeUnmapped offset d => exact ⟨_, .writeUnmapped offset d, rfl, rfl⟩

/-- Only the refused operations answer a refusal, and they read no state. -/
theorem exec_refused {i : Instr} {s : State} {r : Refusal} (h : exec i s = .refused r) (s' : State) :
    exec i s' = .refused r := by
  cases hi : isNarrowConfig i with
  | true => rw [exec_narrow hi s', ← h, exec_narrow hi s]
  | false =>
    obtain ⟨t, ht, -⟩ := exec_effect hi s
    cases ht.symm.trans h

/-- Settles O50: both states do what their common block does. -/
theorem historyDoesNotInfluenceTheBlock : Obligations.HistoryDoesNotInfluenceTheBlock := by
  refine fun s s' i hblock => ⟨fun t h => ?_, fun r h => exec_refused h s'⟩
  obtain ⟨t', h', heffect'⟩ := exec_effect (not_narrow_of_next h) s'
  obtain ⟨u, hu, hub, hur⟩ := (effect_of_exec h).on_block
  obtain ⟨u', hu', hub', hur'⟩ := heffect'.on_block
  have huu : u = u' := by
    have hexec := exec_of_effect hu
    rw [hblock, exec_of_effect hu'] at hexec
    cases hexec
    rfl
  exact ⟨t', h', by rw [hub, hub', huu], by rw [hur, hur', huu]⟩

/-! ### The engine of a stale state (R124, R127, R128, R131) -/

/-- The normal form of a state: the engine its next DATA access would work with, in place, and the ghost bit blanked. -/
def State.settled (s : State) : State := { s with engine := some s.readyEngine, configDirty := false, fed := false }

@[simp] theorem State.settled_inbox (s : State) : s.settled.inbox = s.inbox := rfl

theorem view_settled (s : State) : s.settled.view = s.view := rfl

theorem Effect.on_settled {i : Instr} {s t : State} (h : Effect s i t) :
    ∃ u, Effect s.settled i u ∧ t.settled = u.settled := by
  cases h with
  | read z => exact ⟨_, .read z, rfl⟩
  | feed v hw => exact ⟨_, .feed v hw, rfl⟩
  | storeSeed d hw => exact ⟨_, .storeSeed d hw, rfl⟩
  | reject d hw hd => exact ⟨_, .reject d hw hd, rfl⟩
  | readPoly => exact ⟨_, .readPoly, rfl⟩
  | storePoly v => exact ⟨_, .storePoly v, rfl⟩
  | readCtrl => exact ⟨_, .readCtrl, rfl⟩
  | storeCtrl v hc => exact ⟨_, .storeCtrl v hc, rfl⟩
  | commit v hw hv => exact ⟨_, .commit v hw hv, rfl⟩
  | readUnmapped offset z => exact ⟨_, .readUnmapped offset z, rfl⟩
  | writeUnmapped offset d => exact ⟨_, .writeUnmapped offset d, rfl⟩

/-- A state and its normal form step alike: to states of one normal form, or to the same refusal. -/
theorem step_settled (s : State) :
    (∃ t u, step s = .next t ∧ step s.settled = .next u ∧ t.settled = u.settled) ∨
    (∃ r, step s = .refused r ∧ step s.settled = .refused r) := by
  rcases step_cases (s := s) rfl with ⟨hs, hr⟩ | ⟨rest, hs, hr⟩ | ⟨x, rest, i, hs, hi, hr⟩ | ⟨x, rest, hs, hx, hr⟩
  · exact .inl ⟨s, s.settled, hr, by simp [step, hs], rfl⟩
  · exact .inl ⟨_, _, hr, step_reset (s := s.settled) hs, rfl⟩
  · rw [hr, step_transaction (s := s.settled) hs hi]
    cases hn : isNarrowConfig i with
    | true => exact .inr ⟨_, exec_narrow hn _, exec_narrow hn _⟩
    | false =>
      obtain ⟨t, ht, heffect⟩ := exec_effect hn { s with inbox := rest }
      obtain ⟨u, hu, hsettled⟩ := heffect.on_settled
      exact .inl ⟨t, u, ht, exec_of_effect hu, hsettled⟩
  · exact .inr ⟨_, hr, by simp [step, hs, hx]⟩

theorem run_succ_of_refused {s : State} {r : Refusal} (k : Nat) (h : step s = .refused r) :
    run (k + 1) s = .refused r := by
  simp [run, h]

/-- The host sees of a state what it sees of its normal form, after any number of steps. -/
theorem viewOf_run_settled (k : Nat) (s : State) : viewOf (run k s) = viewOf (run k s.settled) := by
  induction k generalizing s with
  | zero => exact congrArg Host.Outcome.next (view_settled s).symm
  | succ k ih =>
    rcases step_settled s with ⟨t, u, ht, hu, htu⟩ | ⟨r, hs, hn⟩
    · calc viewOf (run (k + 1) s) = viewOf (run k t) := by rw [run_succ_of_next k ht]
        _ = viewOf (run k u.settled) := by rw [ih t, htu]
        _ = viewOf (run (k + 1) s.settled) := by rw [← ih u, run_succ_of_next k hu]
    · rw [run_succ_of_refused k hs, run_succ_of_refused k hn]

/-- States of one normal form cannot be told apart. -/
theorem viewOf_run_congr {s s' : State} (h : s.settled = s'.settled) (k : Nat) :
    viewOf (run k s) = viewOf (run k s') := by
  rw [viewOf_run_settled k s, h, ← viewOf_run_settled k s']

/-- While the dirty bit is set the normal form does not read the engine holder. -/
theorem settled_of_dirty {s : State} (hd : s.configDirty = true) :
    s.settled = { s with engine := some s.freshEngine, configDirty := false, fed := false } := by
  simp [State.settled, State.readyEngine, hd]

/-- Settles O56: the two states have one normal form. -/
theorem staleEngineIsUnobservable : Obligations.StaleEngineIsUnobservable := by
  intro s e b k hd
  refine viewOf_run_congr ?_ k
  rw [settled_of_dirty hd, settled_of_dirty (s := { s with engine := e, fed := b }) hd]
  rfl

/-- Settles O57: the eagerly built engine is the one the first DATA access would build. -/
theorem eagerResetIsUnobservable : Obligations.EagerResetIsUnobservable := fun _ k =>
  viewOf_run_congr (by rfl) k

end Sys2Proof.Machine
end

section
/-! The documented sequence (R126): configure, feed, read. Each part is a run of its own, and runs are composed. -/
namespace Sys2Proof.Machine

/-! ### Runs -/

theorem run_add {m : Nat} {s t : State} (h : run m s = .next t) (n : Nat) : run (m + n) s = run n t := by
  induction m generalizing s with
  | zero =>
    cases h
    rw [Nat.zero_add]
  | succ m ih =>
    cases hstep : step s with
    | next u =>
      rw [run_succ_of_next m hstep] at h
      rw [Nat.add_right_comm, run_succ_of_next (m + n) hstep, ih h]
    | fault f => simp [run, hstep] at h
    | refused r => simp [run, hstep] at h

/-- A well-formed operation that the host issues is the next to run. -/
theorem step_inputOf {s : State} {i : Instr} {rest : List BusInput} (hs : s.inbox = inputOf i :: rest)
    (hi : i.wellFormed = true) : step s = exec i { s with inbox := rest } :=
  step_transaction hs (decode_encode hi)

/-! ### The three parts of the sequence -/

/-- A message is being fed to the engine `e`: accumulate mode, and nothing to reconcile. -/
structure State.Feeding (s : State) (e : Engine) : Prop where
  accumulate : s.ctrl.was = false
  clean : s.configDirty = false
  owned : s.engine = some e

/-- Steps 1 to 4 of R126, from every state. -/
theorem run_configure {s : State} {c p sd : Word} {rest : List BusInput} (hc : c.getLsbD 25 = false)
    (hs : s.inbox = configureInputs c p sd ++ rest) :
    ∃ t, run 4 s = .next t ∧ t.inbox = rest ∧ t.faults = s.faults ∧ t.Feeding
      { config := deriveConfig p (Ctrl.ofWord c) sd, acc := (deriveConfig p (Ctrl.ofWord c) sd).seed } := by
  have hwas : (c ||| 0x02000000).getLsbD 25 = true := by simp
  obtain ⟨t₁, h₁, hi₁, hf₁, hw₁⟩ : ∃ t, step s = .next t ∧
      t.inbox = inputOf (.wrPoly p) :: setSeedInput sd :: commitInput c :: rest ∧ t.faults = s.faults ∧
      t.ctrl.was = true :=
    ⟨_, (step_inputOf hs rfl).trans (exec_wrCtrl_of_not_commit (by simp)), rfl, rfl, hwas⟩
  obtain ⟨t₂, h₂, hi₂, hf₂, hw₂, hp₂⟩ : ∃ t, step t₁ = .next t ∧ t.inbox = setSeedInput sd :: commitInput c :: rest ∧
      t.faults = t₁.faults ∧ t.ctrl.was = true ∧ t.poly = p :=
    ⟨_, step_inputOf hi₁ rfl, rfl, rfl, hw₁, rfl⟩
  obtain ⟨t₃, h₃, hi₃, hf₃, hw₃, hp₃, hsd₃⟩ : ∃ t, step t₂ = .next t ∧ t.inbox = commitInput c :: rest ∧
      t.faults = t₂.faults ∧ t.ctrl.was = true ∧ t.poly = p ∧ t.seed = sd :=
    ⟨_, (step_inputOf hi₂ rfl).trans
      (exec_dataWriteOf_of_was (s := { t₂ with inbox := commitInput c :: rest }) hw₂ (.word sd)),
      rfl, rfl, hw₂, hp₂, rfl⟩
  have h₄ := (step_inputOf hi₃ rfl).trans (exec_wrCtrl_of_commit hw₃ hc)
  have hrun := run_succ_of_next 3 h₁
  rw [run_succ_of_next 2 h₂, run_succ_of_next 1 h₃, run_succ_of_next 0 h₄, run_zero] at hrun
  refine ⟨_, hrun, rfl, hf₃.trans (hf₂.trans hf₁), hc, rfl, ?_⟩
  simp [State.freshEngine, State.candidate, hp₃, hsd₃]

theorem State.Feeding.step {s : State} {e : Engine} {v : Byte} {rest : List BusInput} (h : s.Feeding e)
    (hs : s.inbox = inputOf (.wrDataB v) :: rest) :
    ∃ t, Machine.step s = .next t ∧ t.inbox = rest ∧ t.faults = s.faults ∧ t.Feeding (e.updateByte v) := by
  obtain ⟨hw, hd, he⟩ := h
  rw [step_inputOf hs rfl, exec_wrDataB_of_accumulate (s := { s with inbox := rest }) hw]
  have hready : ({ s with inbox := rest } : State).readyEngine = e := readyEngine_of_clean hd he
  exact ⟨_, rfl, rfl, rfl, hw, rfl, by rw [hready]; rfl⟩

/-- Step 5: the bytes of the message, one by one. -/
theorem State.Feeding.run {s : State} {e : Engine} {msg : List Byte} {rest : List BusInput} (h : s.Feeding e)
    (hs : s.inbox = feedInputs msg ++ rest) :
    ∃ t, Machine.run msg.length s = .next t ∧ t.inbox = rest ∧ t.faults = s.faults ∧ t.Feeding (e.update msg) := by
  induction msg generalizing s e with
  | nil => exact ⟨s, rfl, hs, rfl, h⟩
  | cons v vs ih =>
    obtain ⟨t, ht, hinbox, hfaults, hfeeding⟩ := h.step hs
    obtain ⟨u, hu, hinbox', hfaults', hfeeding'⟩ := ih hfeeding hinbox
    exact ⟨u, (run_succ_of_next vs.length ht).trans hu, hinbox', hfaults'.trans hfaults, hfeeding'⟩

/-- Step 6: the read reports the value of the engine. -/
theorem State.Feeding.read {s : State} {e : Engine} {rest : List BusInput} (h : s.Feeding e)
    (hs : s.inbox = inputOf .rdDataW :: rest) :
    ∃ t, Machine.step s = .next t ∧ t.inbox = rest ∧ t.faults = s.faults ∧
      t.response = some (.ofRead (.word e.value)) := by
  obtain ⟨hw, hd, he⟩ := h
  have hready : ({ s with inbox := rest } : State).readyEngine = e := readyEngine_of_clean hd he
  rw [step_inputOf hs rfl]
  refine ⟨_, exec_dataReadOf .word _, rfl, rfl, ?_⟩
  rw [hready, State.respond_response, dataWord, if_neg (by simp [hw])]
  rfl

/-- Settles O55. -/
theorem configureFeedReadComputesTheChecksum : Obligations.ConfigureFeedReadComputesTheChecksum := by
  intro s c p sd msg rest hc hs
  rw [List.append_assoc] at hs
  obtain ⟨t, ht, hinbox, hfaults, hfeeding⟩ := run_configure hc hs
  obtain ⟨u, hu, hinbox', hfaults', hfeeding'⟩ := hfeeding.run hinbox
  obtain ⟨x, hx, hinbox'', hfaults'', hresponse⟩ := hfeeding'.read hinbox'
  have hrun : run (4 + (msg.length + 1)) s = .next x := by
    rw [run_add ht, run_add hu, run_succ_of_next 0 hx, run_zero]
  rw [show msg.length + 5 = 4 + (msg.length + 1) by omega]
  exact ⟨x, hrun, hinbox'', by rw [hfaults'', hfaults', hfaults], hresponse⟩

end Sys2Proof.Machine
end
